-- ==== Sys2Proof/Word.lean ====
section
/-! DEFINITION. The word types of the block (R6, R7, R8): bytes, codes, results, command words and response words. -/

namespace Sys2Proof

/-- A byte (R8). -/
abbrev Byte := BitVec 8

/-- A 16-bit unsigned raw code or status word (R6, R30). -/
abbrev Code := BitVec 16

/-- A result: RESW = 20 bits, a two's-complement count of thousandths (R7, R14 to R16). -/
abbrev Milli := BitVec 20

/-- A command word: CMDW = 52 bits (R7, R40). -/
abbrev CmdWord := BitVec 52

/-- A response word: RSPW = 24 bits (R7, R42). -/
abbrev RspWord := BitVec 24

end Sys2Proof
end

