-- ==== Sys2Proof/Syntax.lean ====
section
/-! DEFINITION. The eleven commands of R44, one constructor per row of spec/opcode_table.json. -/

namespace Sys2Proof

/-- A legal command with its operands in bus order (R41, R43, R50). The byte-oriented commands take bytes, first byte
first; the conversions take the 16-bit code `{P0, P1}`. -/
inductive Instr where
  /-- CRC8 `p0, p1` (R57). -/
  | crc8 (p0 p1 : Byte)
  /-- VERIFY `p0, p1, c` (R58). -/
  | verify (p0 p1 c : Byte)
  /-- CVTC `code` (R67). -/
  | cvtc (code : Code)
  /-- CVTF `code` (R68). -/
  | cvtf (code : Code)
  /-- CVRH `code` (R69). -/
  | cvrh (code : Code)
  /-- FRAME `b0, b1, b2, b3, b4, b5` (R76). -/
  | frame (b0 b1 b2 b3 b4 b5 : Byte)
  /-- VSTAT `s0, s1, c` (R80). -/
  | vstat (p0 p1 c : Byte)
  /-- RDTC (R84). -/
  | rdtc
  /-- RDTF (R85). -/
  | rdtf
  /-- RDRH (R86). -/
  | rdrh
  /-- RDFLG (R87). -/
  | rdflg
  deriving DecidableEq, Repr

end Sys2Proof
end

