-- ==== Sys2Proof/WellFormed.lean ====
section
/-! DEFINITION. What can be ill-formed: a 52-bit word that is no command (R45 to R47, by the rows of
spec/opcode_table.json) and a written line whose operand does not fit its field (R50). A term of `Instr` cannot be
ill-formed: its operands' types are exactly its fields' widths. -/

namespace Sys2Proof

/-- A row of spec/opcode_table.json: a word is the command of the row iff `w & mask == pattern` (R44). -/
structure OpcodeRow where
  mnemonic : String
  pattern : CmdWord
  mask : CmdWord
  deriving DecidableEq, Repr

/-- `w & mask == match` (R44). -/
def OpcodeRow.selects (r : OpcodeRow) (w : CmdWord) : Bool := w &&& r.mask == r.pattern

/-- The eleven rows of spec/opcode_table.json, in its order. -/
def opcodeRows : List OpcodeRow :=
  [ ⟨"CRC8", 0x1000000000000, 0xFFFFFFFFF0000⟩,
    ⟨"VERIFY", 0x2000000000000, 0xFFFFFFF000000⟩,
    ⟨"CVTC", 0x3000000000000, 0xFFFFFFFFF0000⟩,
    ⟨"CVTF", 0x4000000000000, 0xFFFFFFFFF0000⟩,
    ⟨"CVRH", 0x5000000000000, 0xFFFFFFFFF0000⟩,
    ⟨"FRAME", 0x6000000000000, 0xF000000000000⟩,
    ⟨"VSTAT", 0x7000000000000, 0xFFFFFFF000000⟩,
    ⟨"RDTC", 0x8000000000000, 0xFFFFFFFFFFFFF⟩,
    ⟨"RDTF", 0x9000000000000, 0xFFFFFFFFFFFFF⟩,
    ⟨"RDRH", 0xA000000000000, 0xFFFFFFFFFFFFF⟩,
    ⟨"RDFLG", 0xB000000000000, 0xFFFFFFFFFFFFF⟩ ]

/-- The rows that select `w`. -/
def rowsOf (w : CmdWord) : List OpcodeRow := opcodeRows.filter (·.selects w)

/-- `w` is a legal command word: exactly one row selects it (R47). -/
def legalWord (w : CmdWord) : Bool := (rowsOf w).length == 1

/-- A line of the notation of R50: a mnemonic with its operands as the numbers written, or the directive `.reset`. -/
inductive AsmLine where
  | crc8 (p0 p1 : Nat)
  | verify (p0 p1 c : Nat)
  | cvtc (code : Nat)
  | cvtf (code : Nat)
  | cvrh (code : Nat)
  | frame (b0 b1 b2 b3 b4 b5 : Nat)
  | vstat (s0 s1 c : Nat)
  | rdtc
  | rdtf
  | rdrh
  | rdflg
  | reset
  deriving DecidableEq, Repr

/-- Each operand fits a byte. -/
def bytesFit (ops : List Nat) : Bool := ops.all (· < 256)

/-- A line is well formed when each operand fits its field: a byte, or a 16-bit code (R41, R50). -/
def AsmLine.wellFormed : AsmLine → Bool
  | .crc8 p0 p1 => bytesFit [p0, p1]
  | .verify p0 p1 c => bytesFit [p0, p1, c]
  | .cvtc code => code < 65536
  | .cvtf code => code < 65536
  | .cvrh code => code < 65536
  | .frame b0 b1 b2 b3 b4 b5 => bytesFit [b0, b1, b2, b3, b4, b5]
  | .vstat s0 s1 c => bytesFit [s0, s1, c]
  | .rdtc => true
  | .rdtf => true
  | .rdrh => true
  | .rdflg => true
  | .reset => true

end Sys2Proof
end

