-- ==== Sys2Proof/Decode.lean ====
section
/-! DEFINITION. The decoder, total on 52-bit words and rejecting by name (R40, R41, R44 to R47), the encoder, and the
host's view of the decoder. -/

namespace Sys2Proof

/-- Why a word is not a command. -/
inductive DecodeError where
  /-- The opcode is reserved (R45). -/
  | reservedOpcode (op : BitVec 4)
  /-- The opcode is legal and a must-be-zero bit of its format is 1 (R46). -/
  | strayBits (op : BitVec 4)
  deriving DecidableEq, Repr

/-- `op = cmd[51:48]` (R40). -/
def opOf (w : CmdWord) : BitVec 4 := w.extractLsb' 48 4

/-- `data = cmd[47:0]` (R40). -/
def dataOf (w : CmdWord) : BitVec 48 := w.extractLsb' 0 48

/-- Byte `k` of the data field, `data[8k+7:8k]` (R41). -/
def byteOf (k : Nat) (w : CmdWord) : Byte := w.extractLsb' (8 * k) 8

/-- `code = data[15:0]` (R43). -/
def codeOf (w : CmdWord) : Code := w.extractLsb' 0 16

/-- The must-be-zero bits of format P16, `data[47:16]` (R41). -/
def mbzP16 (w : CmdWord) : BitVec 32 := w.extractLsb' 16 32

/-- The must-be-zero bits of format P24, `data[47:24]` (R41). -/
def mbzP24 (w : CmdWord) : BitVec 24 := w.extractLsb' 24 24

/-- `i`, provided the must-be-zero bits of its format are zero (R46). -/
def ifZero {n : Nat} (mbz : BitVec n) (w : CmdWord) (i : Instr) : Except DecodeError Instr :=
  if mbz = 0#n then .ok i else .error (.strayBits (opOf w))

/-- Decoding (R44, R47): the opcode chooses the format; a reserved opcode or a stray bit is an error by name. -/
def decode (w : CmdWord) : Except DecodeError Instr :=
  match (opOf w).toNat with
  | 0x1 => ifZero (mbzP16 w) w (.crc8 (byteOf 1 w) (byteOf 0 w))
  | 0x2 => ifZero (mbzP24 w) w (.verify (byteOf 2 w) (byteOf 1 w) (byteOf 0 w))
  | 0x3 => ifZero (mbzP16 w) w (.cvtc (codeOf w))
  | 0x4 => ifZero (mbzP16 w) w (.cvtf (codeOf w))
  | 0x5 => ifZero (mbzP16 w) w (.cvrh (codeOf w))
  | 0x6 => .ok (.frame (byteOf 5 w) (byteOf 4 w) (byteOf 3 w) (byteOf 2 w) (byteOf 1 w) (byteOf 0 w))
  | 0x7 => ifZero (mbzP24 w) w (.vstat (byteOf 2 w) (byteOf 1 w) (byteOf 0 w))
  | 0x8 => ifZero (dataOf w) w .rdtc
  | 0x9 => ifZero (dataOf w) w .rdtf
  | 0xA => ifZero (dataOf w) w .rdrh
  | 0xB => ifZero (dataOf w) w .rdflg
  | _ => .error (.reservedOpcode (opOf w))

/-- The word of a command (R40, R41, R44): the opcode, the must-be-zero bits, the operand first byte first. -/
def encode : Instr → CmdWord
  | .crc8 p0 p1 => 0x1#4 ++ 0#32 ++ p0 ++ p1
  | .verify p0 p1 c => 0x2#4 ++ 0#24 ++ p0 ++ p1 ++ c
  | .cvtc code => 0x3#4 ++ 0#32 ++ code
  | .cvtf code => 0x4#4 ++ 0#32 ++ code
  | .cvrh code => 0x5#4 ++ 0#32 ++ code
  | .frame b0 b1 b2 b3 b4 b5 => 0x6#4 ++ b0 ++ b1 ++ b2 ++ b3 ++ b4 ++ b5
  | .vstat p0 p1 c => 0x7#4 ++ 0#24 ++ p0 ++ p1 ++ c
  | .rdtc => 0x8#4 ++ 0#48
  | .rdtf => 0x9#4 ++ 0#48
  | .rdrh => 0xA#4 ++ 0#48
  | .rdflg => 0xB#4 ++ 0#48

/-- The row's mnemonic of a command (R44). -/
def mnemonicOf : Instr → String
  | .crc8 _ _ => "CRC8"
  | .verify _ _ _ => "VERIFY"
  | .cvtc _ => "CVTC"
  | .cvtf _ => "CVTF"
  | .cvrh _ => "CVRH"
  | .frame _ _ _ _ _ _ => "FRAME"
  | .vstat _ _ _ => "VSTAT"
  | .rdtc => "RDTC"
  | .rdtf => "RDTF"
  | .rdrh => "RDRH"
  | .rdflg => "RDFLG"

/-- The command that the decoder reads from a word whose low `nbits` bits are those of `w`, the bits above being zero.
A command word is one 52-bit value and is never seen as bytes (R31); a number that does not fit it is none. -/
def decodeTableWord (nbits w : Nat) : Option Instr :=
  if w % 2 ^ nbits < 2 ^ 52 then (decode (BitVec.ofNat 52 (w % 2 ^ nbits))).toOption else none

end Sys2Proof
end

