-- ==== Sys2Proof/Config.lean ====
section
/-! DEFINITION. What the spec leaves open (R7): free values, opaque constants that nothing in Lean can evaluate.
Each is applied to a plain counter, so that it may differ each time it is drawn. -/

namespace Sys2Proof.Config

/-- RESET_TC of the `n`-th reset (R7, R26): any 20-bit value, possibly another at each reset. Log entry 1. -/
opaque resetTc (n : Nat) : Milli

/-- RESET_TF of the `n`-th reset (R7, R26). Log entry 1. -/
opaque resetTf (n : Nat) : Milli

/-- RESET_RH of the `n`-th reset (R7, R26). Log entry 1. -/
opaque resetRh (n : Nat) : Milli

/-- LAT less one, for the command `w` accepted in clock cycle `n` (R7, R117): any natural number. Log entry 5. -/
opaque latMinusOne (n : Nat) (w : CmdWord) : Nat

/-- LAT of the command `w` accepted in clock cycle `n` (R117): an integer of at least 1, which may differ per command. -/
def lat (n : Nat) (w : CmdWord) : Nat := latMinusOne n w + 1

/-- The bits on `rsp` in a cycle `n` in which they carry no response (R39: `rsp` is meaningful only while
`rsp_valid = 1`). Log entry 5. -/
opaque idleRsp (n : Nat) : RspWord

/-- `cmd_ready` in cycle `n`, when that is the first cycle with `rst = 0` after a reset: R105 fixes it only after
that cycle. Log entry 6. -/
opaque firstCycleReady (n : Nat) : Bool

/-- `cmd_ready` in a cycle `n` before the first reset (R105: outputs are undefined). Log entry 7. -/
opaque unresetReady (n : Nat) : Bool

/-- `rsp_valid` in a cycle `n` before the first reset (R105: outputs are undefined). Log entry 7. -/
opaque unresetValid (n : Nat) : Bool

end Sys2Proof.Config
end

