-- ==== Sys2Proof/Machine/State.lean ====
section
/-! DEFINITION. The block's state (R13), what the host does and is answered, the reasons a step could stop, and the
state after reset (R26, R106). -/

namespace Sys2Proof.Machine

/-- What the host does between two steps of the block (R10, R27): it issues a command word, or it asserts `rst`. -/
inductive HostEvent where
  /-- Any 52-bit word on the command port (R119). -/
  | command (w : CmdWord)
  /-- A pulse of `rst` between two commands (R105), the directive `.reset` (R50). -/
  | reset
  deriving DecidableEq, Repr

/-- The seven registers of R13 and, with them, what R27 makes a parameter of the step relation. -/
structure State where
  /-- `TC`, thousandths of a degree Celsius (R14). -/
  tc : Milli
  /-- `TF`, thousandths of a degree Fahrenheit (R15). -/
  tf : Milli
  /-- `RH`, thousandths of a percent (R16). -/
  rh : Milli
  /-- `TV`, the last frame's temperature channel passed (R21). -/
  tv : Bool
  /-- `HV`, the last frame's humidity channel passed (R21). -/
  hv : Bool
  /-- `TRDY`, a new temperature is waiting to be read (R22). -/
  trdy : Bool
  /-- `HRDY`, a new humidity is waiting to be read (R22). -/
  hrdy : Bool
  /-- The model's own: how many resets have been taken, the argument of the next draw of R26. Log entry 1. -/
  resets : Nat
  /-- The model's own: what the host will do, the front next (R19, R27). Log entry 2. -/
  inputs : List HostEvent
  /-- The model's own: the responses given so far, the oldest first (R109). Log entry 3. -/
  outputs : List RspWord
  deriving DecidableEq, Repr

/-- A fault would stop the block. The spec has none: no command can fail, no event stops the block (R91, R94, R97), so
no constructor exists and nothing raises one (safe: no behaviour is cut off). -/
inductive Fault where
  deriving DecidableEq, Repr

/-- Why a model gives no meaning. -/
inductive Refusal where
  /-- Raised by an arm of `exec` for an instruction that has no meaning yet (safe). No arm raises it. -/
  | notModelled (mnemonic : String)
  /-- Raised by the clocked port alone, when the host presents a command before the first reset (R105; U4 asks for a
  refusal). Safe: the model stops where the spec gives no meaning. Log entry 7. -/
  | beforeFirstReset
  deriving DecidableEq, Repr

/-- The state right after the first reset (R26, R106): the flags 0, the result registers at the open parameters'
values. No host input is listed and nothing has been answered. -/
def State.reset : State where
  tc := Config.resetTc 0
  tf := Config.resetTf 0
  rh := Config.resetRh 0
  tv := false
  hv := false
  trdy := false
  hrdy := false
  resets := 1
  inputs := []
  outputs := []

end Sys2Proof.Machine
end

