-- ==== Sys2Proof/Machine/Operands.lean ====
section
/-! DEFINITION. Operand assembly (R30, R43): 16-bit values from two bytes, zero extension to `DOUT`, and the channels of
a frame (R74). -/

namespace Sys2Proof.Machine

/-- `{p0, p1}`, the first byte more significant: a raw code or a status word (R30, R43). -/
def code16 (p0 p1 : Byte) : Code := p0 ++ p1

/-- `zext_20` (R8). -/
def zext20 {n : Nat} (v : BitVec n) : Milli := v.setWidth 20

/-- A channel: a two-byte payload and the checksum received with it (R74). -/
structure Channel where
  p0 : Byte
  p1 : Byte
  c : Byte
  deriving DecidableEq, Repr

/-- The code a channel carries (R74). -/
def Channel.code (ch : Channel) : Code := code16 ch.p0 ch.p1

end Sys2Proof.Machine
end

