-- ==== Sys2Proof/Machine/Ops.lean ====
section
/-! DEFINITION. The named operations on the block's state: register writes, giving a response (R42), the illegal-command
event (R93) and the host's reset (R105, R106). The block takes no traps (R97), so there is no entry and no return. -/

namespace Sys2Proof.Machine

/-- What a step answers. -/
abbrev Result := Host.Outcome State Fault Refusal

/-- Write `TC` (R14). -/
def State.setTc (s : State) (v : Milli) : State := { s with tc := v }

/-- Write `TF` (R15). -/
def State.setTf (s : State) (v : Milli) : State := { s with tf := v }

/-- Write `RH` (R16). -/
def State.setRh (s : State) (v : Milli) : State := { s with rh := v }

/-- Write `TV` (R21). -/
def State.setTv (s : State) (b : Bool) : State := { s with tv := b }

/-- Write `HV` (R21). -/
def State.setHv (s : State) (b : Bool) : State := { s with hv := b }

/-- Write `TRDY` (R22). -/
def State.setTrdy (s : State) (b : Bool) : State := { s with trdy := b }

/-- Write `HRDY` (R22). -/
def State.setHrdy (s : State) (b : Bool) : State := { s with hrdy := b }

/-- Take the host's next events to be `es`. -/
def State.setInputs (s : State) (es : List HostEvent) : State := { s with inputs := es }

/-- The response word `{ILL, WS, WH, WT, DOUT}` (R42). -/
def responseWord (ill ws wh wt : Bool) (dout : Milli) : RspWord :=
  BitVec.ofBool ill ++ BitVec.ofBool ws ++ BitVec.ofBool wh ++ BitVec.ofBool wt ++ dout

/-- `DOUT = rsp[19:0]` (R42). -/
def rspDout (r : RspWord) : Milli := r.extractLsb' 0 20

/-- `WT = rsp[20]` (R42). -/
def rspWt (r : RspWord) : Bool := r.getLsbD 20

/-- `WH = rsp[21]` (R42). -/
def rspWh (r : RspWord) : Bool := r.getLsbD 21

/-- `WS = rsp[22]` (R42). -/
def rspWs (r : RspWord) : Bool := r.getLsbD 22

/-- `ILL = rsp[23]` (R42). -/
def rspIll (r : RspWord) : Bool := r.getLsbD 23

/-- Present a response word to the host (R34, R42): one more response, after all earlier ones. -/
def State.emit (s : State) (r : RspWord) : State := { s with outputs := s.outputs ++ [r] }

/-- `respond(ILL, WS, WH, WT, DOUT)` of R9 and R42, the end of every command: the state with this response given. -/
def State.respond (s : State) (ill ws wh wt : Bool) (dout : Milli) : State :=
  s.emit (responseWord ill ws wh wt dout)

/-- The response of a command that raises no event: `respond(0, 0, 0, 0, DOUT)`. -/
def answer (dout : Milli) (s : State) : Result := .next (s.respond false false false false dout)

/-- The illegal-command event (R93): no state is read or written, the response is `respond(1, 0, 0, 0, 0)`, and the
block goes on. -/
def illegalCommand (s : State) : Result := .next (s.respond true false false false 0#20)

/-- The host asserts `rst` (R105, R106): the flags 0, the result registers at a fresh draw of the open parameters. What
the host does next and what it was answered are not the block's and stay. -/
def hostReset (s : State) : State where
  tc := Config.resetTc s.resets
  tf := Config.resetTf s.resets
  rh := Config.resetRh s.resets
  tv := false
  hv := false
  trdy := false
  hrdy := false
  resets := s.resets + 1
  inputs := s.inputs
  outputs := s.outputs

end Sys2Proof.Machine
end

