-- ==== Sys2Proof/Machine/Conversion.lean ====
section
/-! DEFINITION. The three conversions (R63 to R65) and the commands CVTC, CVTF, CVRH (R67 to R69). -/

namespace Sys2Proof.Machine

/-- `to_s20(n)`: the 20-bit two's-complement pattern of an integer (R8). -/
def toS20 (n : Int) : Milli := BitVec.ofInt 20 n

/-- `floor((factor * int(code) + 65535) / 131070)`, on mathematical integers (R63 to R65, R70): `factor / 2` times
`code / 65535`, rounded to the nearest integer. The constant stands first in the sum so that the kernel never counts it
down on an unknown code. -/
def scaled (factor : Nat) (code : Code) : Nat := (65535 + factor * code.toNat) / 131070

/-- `cvt_tc(code)`: thousandths of a degree Celsius (R63). -/
def cvtTc (code : Code) : Milli := toS20 (-45000 + (scaled 350000 code : Int))

/-- `cvt_tf(code)`: thousandths of a degree Fahrenheit (R64). -/
def cvtTf (code : Code) : Milli := toS20 (-49000 + (scaled 630000 code : Int))

/-- `cvt_rh(code)`: thousandths of a percent (R65). -/
def cvtRh (code : Code) : Milli := toS20 (scaled 200000 code : Int)

/-- CVTC (R67). -/
def execCvtc (code : Code) (s : State) : Result := answer (cvtTc code) s

/-- CVTF (R68). -/
def execCvtf (code : Code) (s : State) : Result := answer (cvtTf code) s

/-- CVRH (R69). -/
def execCvrh (code : Code) (s : State) : Result := answer (cvtRh code) s

end Sys2Proof.Machine
end

