-- ==== Sys2Proof/Machine/Flags.lean ====
section
/-! DEFINITION. The derived flag `READY` (R18) and the image of `FLAGS` (R17). -/

namespace Sys2Proof.Machine

/-- `READY = TRDY & HRDY`, not stored (R18). -/
def State.ready (s : State) : Bool := s.trdy && s.hrdy

/-- The flags image `{READY, HRDY, TRDY, HV, TV}` (R17, R87). -/
def State.flags (s : State) : BitVec 5 :=
  BitVec.ofBool s.ready ++ BitVec.ofBool s.hrdy ++ BitVec.ofBool s.trdy ++ BitVec.ofBool s.hv ++ BitVec.ofBool s.tv

end Sys2Proof.Machine
end

