-- ==== Sys2Proof/Machine/Frame.lean ====
section
/-! DEFINITION. The commands that take a frame as the bus delivered it: FRAME (R76) and VSTAT (R80). -/

namespace Sys2Proof.Machine

/-- What FRAME does with its temperature channel (R76 to R78): a channel that passes writes `TC`, `TF` and sets `TRDY`;
one that fails leaves them; `TV` is the check's result either way. -/
def State.takeTemperature (s : State) (ch : Channel) : State :=
  if ch.ok then (((s.setTc (cvtTc ch.code)).setTf (cvtTf ch.code)).setTrdy true).setTv true else s.setTv false

/-- What FRAME does with its humidity channel (R76 to R78). -/
def State.takeHumidity (s : State) (ch : Channel) : State :=
  if ch.ok then ((s.setRh (cvtRh ch.code)).setHrdy true).setHv true else s.setHv false

/-- FRAME on the two channels of R74: both taken, then one response with a warning bit per failed channel (R79) and the
flags image after the writes. -/
def runFrame (t h : Channel) (s : State) : Result :=
  let s' := (s.takeTemperature t).takeHumidity h
  .next (s'.respond false false (!h.ok) (!t.ok) (zext20 s'.flags))

/-- FRAME (R76): bytes 0 to 2 are the temperature channel, bytes 3 to 5 the humidity channel. -/
def execFrame (b0 b1 b2 b3 b4 b5 : Byte) (s : State) : Result := runFrame ⟨b0, b1, b2⟩ ⟨b3, b4, b5⟩ s

/-- `SENTINEL` (R6, R81). -/
def statusSentinel : Code := 0xFFFF

/-- VSTAT (R80): the status word, or the sentinel and the warning `WS`. -/
def execVstat (p0 p1 c : Byte) (s : State) : Result :=
  if chk p0 p1 c then answer (zext20 (code16 p0 p1)) s
  else .next (s.respond false true false false (zext20 statusSentinel))

end Sys2Proof.Machine
end

