-- ==== Sys2Proof/Machine/Readout.lean ====
section
/-! DEFINITION. The read-out commands RDTC, RDTF, RDRH, RDFLG (R84 to R87). -/

namespace Sys2Proof.Machine

/-- RDTC (R84): the content of `TC`, whatever the flags say (R88); `TRDY` is cleared. -/
def execRdtc (s : State) : Result := answer s.tc (s.setTrdy false)

/-- RDTF (R85): the content of `TF`; the one temperature-ready flag is cleared. -/
def execRdtf (s : State) : Result := answer s.tf (s.setTrdy false)

/-- RDRH (R86): the content of `RH`; `HRDY` is cleared. -/
def execRdrh (s : State) : Result := answer s.rh (s.setHrdy false)

/-- RDFLG (R87): the flags image; nothing is consumed. -/
def execRdflg (s : State) : Result := answer (zext20 s.flags) s

end Sys2Proof.Machine
end

