-- ==== Sys2Proof/Machine/Dispatch.lean ====
section
/-! DEFINITION. One arm per command (R44). -/

namespace Sys2Proof.Machine

def exec (i : Instr) (s : State) : Host.Outcome State Fault Refusal :=
  match i with
  | .crc8 p0 p1 => Sys2Proof.Machine.execCrc8 p0 p1 s
  | .verify p0 p1 c => Sys2Proof.Machine.execVerify p0 p1 c s
  | .cvtc code => Sys2Proof.Machine.execCvtc code s
  | .cvtf code => Sys2Proof.Machine.execCvtf code s
  | .cvrh code => Sys2Proof.Machine.execCvrh code s
  | .frame b0 b1 b2 b3 b4 b5 => Sys2Proof.Machine.execFrame b0 b1 b2 b3 b4 b5 s
  | .vstat p0 p1 c => Sys2Proof.Machine.execVstat p0 p1 c s
  | .rdtc => Sys2Proof.Machine.execRdtc s
  | .rdtf => Sys2Proof.Machine.execRdtf s
  | .rdrh => Sys2Proof.Machine.execRdrh s
  | .rdflg => Sys2Proof.Machine.execRdflg s

end Sys2Proof.Machine
end

