-- ==== Sys2Proof/Machine/Command.lean ====
section
/-! DEFINITION. Running one command word (R47, R93), one host event, and taking the next event from the host (R19, R34). -/

namespace Sys2Proof.Machine

/-- Run one word of the command port (R47): the command it decodes to, or the illegal-command event. -/
def runCommand (w : CmdWord) (s : State) : Result :=
  match decode w with
  | .ok i => exec i s
  | .error _ => illegalCommand s

/-- Run one host event: a command, or a reset between commands (R105), which yields no response (R109). -/
def runEvent (e : HostEvent) (s : State) : Result :=
  match e with
  | .command w => runCommand w s
  | .reset => .next (hostReset s)

/-- The host's next event and the state without it; none when the host does nothing more. -/
def nextEvent (s : State) : Option (HostEvent × State) :=
  match s.inputs with
  | [] => none
  | e :: es => some (e, s.setInputs es)

/-- No command is waiting: the block is idle and holds its state (R104, R120). -/
def idle (s : State) : Result := .next s

/-- Put a command word in front of everything the host will do, so that it is the next one run. -/
def placeCommand (w : CmdWord) (s : State) : State := s.setInputs (.command w :: s.inputs)

end Sys2Proof.Machine
end

