-- ==== Sys2Proof/Machine/Step.lean ====
section
/-! DEFINITION. One step of the block (R10): take the host's next event and run it. -/

namespace Sys2Proof.Machine

/-- One step (R10, R19, R34): the host's next event is run; with none waiting the block is idle. -/
def step (s : State) : Host.Outcome State Fault Refusal :=
  match nextEvent s with
  | none => idle s
  | some (e, s') => runEvent e s'

/-- `s` with the word whose low `nbits` bits are those of `w` (the bits above zero) as the host's next command. -/
def State.withFetchWord (s : State) (nbits w : Nat) : State := placeCommand (BitVec.ofNat 52 (w % 2 ^ nbits)) s

end Sys2Proof.Machine
end

