-- ==== Sys2Proof/Machine/Program.lean ====
section
/-! DEFINITION. Programs in the notation of R50: each line is a command or the directive `.reset`; a program is what the
host does from the reset state (R19, R109). -/

namespace Sys2Proof.Machine

/-- What a written line stands for (R50), its operands cut to their fields. -/
def lineMeaning : AsmLine → HostEvent
  | .crc8 p0 p1 => .command (encode (.crc8 (BitVec.ofNat 8 p0) (BitVec.ofNat 8 p1)))
  | .verify p0 p1 c => .command (encode (.verify (BitVec.ofNat 8 p0) (BitVec.ofNat 8 p1) (BitVec.ofNat 8 c)))
  | .cvtc code => .command (encode (.cvtc (BitVec.ofNat 16 code)))
  | .cvtf code => .command (encode (.cvtf (BitVec.ofNat 16 code)))
  | .cvrh code => .command (encode (.cvrh (BitVec.ofNat 16 code)))
  | .frame b0 b1 b2 b3 b4 b5 =>
    .command (encode (.frame (BitVec.ofNat 8 b0) (BitVec.ofNat 8 b1) (BitVec.ofNat 8 b2) (BitVec.ofNat 8 b3)
      (BitVec.ofNat 8 b4) (BitVec.ofNat 8 b5)))
  | .vstat s0 s1 c => .command (encode (.vstat (BitVec.ofNat 8 s0) (BitVec.ofNat 8 s1) (BitVec.ofNat 8 c)))
  | .rdtc => .command (encode .rdtc)
  | .rdtf => .command (encode .rdtf)
  | .rdrh => .command (encode .rdrh)
  | .rdflg => .command (encode .rdflg)
  | .reset => .reset

/-- The host event of a line; none for a line that is not well formed. -/
def assembleLine (l : AsmLine) : Option HostEvent := if l.wellFormed then some (lineMeaning l) else none

/-- The host events of a program; none if some line is not well formed. -/
def assemble (p : List AsmLine) : Option (List HostEvent) := p.mapM assembleLine

/-- The reset state with `es` as all the host will do (R109). -/
def load (es : List HostEvent) : State := State.reset.setInputs es

end Sys2Proof.Machine
end

