-- ==== Sys2Proof/Machine/Notation.lean ====
section
/-! DEFINITION. The text of programs and words: lines in the notation of R50, read and written, and the hexadecimal
spelling of command words (R52) and response words (R53). Text is a list of characters. -/

namespace Sys2Proof.Machine

/-- The digit of a value below 16. -/
def hexChar (d : Nat) : Char :=
  ['0', '1', '2', '3', '4', '5', '6', '7', '8', '9', 'A', 'B', 'C', 'D', 'E', 'F'].getD d '0'

/-- The value of a hexadecimal digit, in upper or lower case. -/
def hexVal (c : Char) : Option Nat :=
  if 48 ≤ c.toNat ∧ c.toNat ≤ 57 then some (c.toNat - 48)
  else if 65 ≤ c.toNat ∧ c.toNat ≤ 70 then some (c.toNat - 55)
  else if 97 ≤ c.toNat ∧ c.toNat ≤ 102 then some (c.toNat - 87)
  else none

/-- The last `n` hexadecimal digits of `v`, the most significant first. -/
def hexText : Nat → Nat → List Char
  | 0, _ => []
  | n + 1, v => hexText n (v / 16) ++ [hexChar (v % 16)]

/-- `acc` continued by hexadecimal digits. -/
def readHexFrom (acc : Nat) : List Char → Option Nat
  | [] => some acc
  | c :: cs =>
    match hexVal c with
    | some d => readHexFrom (16 * acc + d) cs
    | none => none

/-- A hexadecimal number with the prefix `0x` (R50) and at least one digit. -/
def readNumber : List Char → Option Nat
  | '0' :: 'x' :: d :: ds => readHexFrom 0 (d :: ds)
  | _ => none

/-- `0x` and the last `n` hexadecimal digits of `v`. -/
def numberText (n v : Nat) : List Char := '0' :: 'x' :: hexText n v

/-- A command word is spelled as 13 hexadecimal digits (R52). -/
def commandText (w : CmdWord) : List Char := numberText 13 w.toNat

/-- The command word spelled by a text: 13 hexadecimal digits after `0x` (R52). -/
def readCommand (cs : List Char) : Option CmdWord :=
  if cs.length = 15 then (readNumber cs).map (BitVec.ofNat 52) else none

/-- A response word is spelled as 6 hexadecimal digits (R53). -/
def responseText (r : RspWord) : List Char := numberText 6 r.toNat

/-- A space or a tab. -/
def isBlank (c : Char) : Bool := c == ' ' || c == '\t'

/-- The text without the blanks at its two ends. -/
def trim (cs : List Char) : List Char := ((cs.dropWhile isBlank).reverse.dropWhile isBlank).reverse

/-- The parts between commas. -/
def splitCommas : List Char → List (List Char)
  | [] => [[]]
  | c :: cs =>
    if c = ',' then [] :: splitCommas cs
    else
      match splitCommas cs with
      | [] => [[c]]
      | part :: parts => (c :: part) :: parts

/-- The numbers of an operand list: nothing, or numbers separated by commas (R50). -/
def readOperands (cs : List Char) : Option (List Nat) :=
  if cs = [] then some [] else (splitCommas cs).mapM fun part => readNumber (trim part)

/-- The upper-case mnemonic of a line, or the directive `.reset` (R50). -/
def lineHead : AsmLine → List Char
  | .crc8 _ _ => ['C', 'R', 'C', '8']
  | .verify _ _ _ => ['V', 'E', 'R', 'I', 'F', 'Y']
  | .cvtc _ => ['C', 'V', 'T', 'C']
  | .cvtf _ => ['C', 'V', 'T', 'F']
  | .cvrh _ => ['C', 'V', 'R', 'H']
  | .frame _ _ _ _ _ _ => ['F', 'R', 'A', 'M', 'E']
  | .vstat _ _ _ => ['V', 'S', 'T', 'A', 'T']
  | .rdtc => ['R', 'D', 'T', 'C']
  | .rdtf => ['R', 'D', 'T', 'F']
  | .rdrh => ['R', 'D', 'R', 'H']
  | .rdflg => ['R', 'D', 'F', 'L', 'G']
  | .reset => ['.', 'r', 'e', 's', 'e', 't']

/-- The lines that take the operands `ns`, in number: at most one has a given head. -/
def linesWith : List Nat → List AsmLine
  | [] => [.rdtc, .rdtf, .rdrh, .rdflg, .reset]
  | [n] => [.cvtc n, .cvtf n, .cvrh n]
  | [p0, p1] => [.crc8 p0 p1]
  | [p0, p1, c] => [.verify p0 p1 c, .vstat p0 p1 c]
  | [b0, b1, b2, b3, b4, b5] => [.frame b0 b1 b2 b3 b4 b5]
  | _ => []

/-- Read one line (R50): a comment runs from `;` to the end; what is left is blank (no command), or a mnemonic or the
directive, and its operands. The answer lists the one line read, or none for a blank one; a text that is no line, or
whose operands do not fit, gives nothing. -/
def readLine (cs : List Char) : Option (List AsmLine) :=
  let body := trim (cs.takeWhile (· ≠ ';'))
  if body = [] then some []
  else
    match readOperands (trim (body.dropWhile (!isBlank ·))) with
    | none => none
    | some ns =>
      match (linesWith ns).filter (lineHead · = body.takeWhile (!isBlank ·)) with
      | [l] => if l.wellFormed then some [l] else none
      | _ => none

/-- The operands of a line as R50 writes them: `0x` and two digits a byte, four a code, separated by a comma and a
space. -/
def operandTexts : AsmLine → List (List Char)
  | .crc8 p0 p1 => [numberText 2 p0, numberText 2 p1]
  | .verify p0 p1 c => [numberText 2 p0, numberText 2 p1, numberText 2 c]
  | .cvtc code => [numberText 4 code]
  | .cvtf code => [numberText 4 code]
  | .cvrh code => [numberText 4 code]
  | .frame b0 b1 b2 b3 b4 b5 =>
    [numberText 2 b0, numberText 2 b1, numberText 2 b2, numberText 2 b3, numberText 2 b4, numberText 2 b5]
  | .vstat s0 s1 c => [numberText 2 s0, numberText 2 s1, numberText 2 c]
  | .rdtc => []
  | .rdtf => []
  | .rdrh => []
  | .rdflg => []
  | .reset => []

/-- The text of a line (R50). -/
def lineText (l : AsmLine) : List Char :=
  match operandTexts l with
  | [] => lineHead l
  | p :: ps => lineHead l ++ ' ' :: p ++ ps.flatMap fun q => ',' :: ' ' :: q

/-- The host events of a program given as lines of text; nothing if some line is none. -/
def assembleText (p : List (List Char)) : Option (List HostEvent) :=
  (p.mapM readLine).map fun ls => ls.flatten.map lineMeaning

end Sys2Proof.Machine
end

