-- ==== Sys2Proof/Machine/Port.lean ====
section
/-! DEFINITION. The same block seen at its ports, clock cycle by clock cycle (R39, R105, R107, R113, R117). Nothing of
the command meanings reads it: `step` knows the order of commands alone, as R117 asks. The latency of each command is
the free value `Config.lat`. -/

namespace Sys2Proof.Machine

/-- The inputs of one clock cycle (R39). -/
structure PortIn where
  rst : Bool
  cmdValid : Bool
  cmd : CmdWord
  deriving DecidableEq, Repr

/-- The outputs of one clock cycle (R39). -/
structure PortOut where
  cmdReady : Bool
  rspValid : Bool
  rsp : RspWord
  deriving DecidableEq, Repr

/-- Where the command port stands. -/
inductive Phase where
  /-- Before the first reset (R105). -/
  | unreset
  /-- The first cycle with `rst = 0` after a reset (R105). -/
  | starting
  /-- Ready for a command (R39). -/
  | idle
  /-- `w` was accepted; `left` cycles pass before the cycle of its response (R39). -/
  | busy (w : CmdWord) (left : Nat)
  deriving DecidableEq, Repr

/-- The command under way, if any. -/
def Phase.pending : Phase → Option CmdWord
  | .unreset => none
  | .starting => none
  | .idle => none
  | .busy w _ => some w

/-- The block and its port. -/
structure Port where
  block : State
  phase : Phase
  /-- The model's own: a count of clock cycles, the argument of the free values. Log entry 5. -/
  cycle : Nat
  deriving DecidableEq, Repr

/-- What a clock cycle answers: the port after it and the outputs in it, or a refusal. -/
abbrev CycleResult := Host.Outcome (Port × PortOut) Fault Refusal

/-- A cycle after which the port is in phase `ph`, the block as it was, with no response. -/
def Port.quiet (p : Port) (ph : Phase) (ready : Bool) : CycleResult :=
  .next ({ p with phase := ph, cycle := p.cycle + 1 }, ⟨ready, false, Config.idleRsp p.cycle⟩)

/-- A cycle with `cmd_ready` at `ready` and no command under way: a command is accepted iff `cmd_valid` and `cmd_ready`
are both 1 (R39), and its response is then LAT cycles away (R117). -/
def Port.listen (p : Port) (i : PortIn) (ready : Bool) : CycleResult :=
  if i.cmdValid && ready then p.quiet (.busy i.cmd (Config.latMinusOne p.cycle i.cmd)) ready else p.quiet .idle ready

/-- The response cycle (R39): all writes and the response of the command take effect together (R33). -/
def Port.finish (p : Port) (w : CmdWord) : CycleResult :=
  match runCommand w p.block with
  | .next s =>
    .next ({ p with block := s, phase := .idle, cycle := p.cycle + 1 },
      ⟨false, true, s.outputs.getLastD (Config.idleRsp p.cycle)⟩)
  | .fault r => .fault r
  | .refused r => .refused r

/-- A cycle with `rst = 1` (R105, R107): the reset state, no response, no command accepted; a command under way is
abandoned. -/
def Port.inReset (p : Port) : CycleResult :=
  .next (⟨hostReset p.block, .starting, p.cycle + 1⟩, ⟨false, false, Config.idleRsp p.cycle⟩)

/-- A cycle with `rst = 0` before the first reset: the outputs are undefined (R105), and a command presented has no
meaning (U4). -/
def Port.beforeReset (p : Port) (i : PortIn) : CycleResult :=
  if i.cmdValid then .refused .beforeFirstReset
  else
    .next ({ p with cycle := p.cycle + 1 },
      ⟨Config.unresetReady p.cycle, Config.unresetValid p.cycle, Config.idleRsp p.cycle⟩)

/-- One clock cycle. While a command is under way the command port is ignored (R113). -/
def Port.tick (p : Port) (i : PortIn) : CycleResult :=
  if i.rst then p.inReset
  else
    match p.phase with
    | .unreset => p.beforeReset i
    | .starting => p.listen i (Config.firstCycleReady p.cycle)
    | .idle => p.listen i true
    | .busy w (n + 1) => p.quiet (.busy w n) false
    | .busy w 0 => p.finish w

/-- Clock cycles one after another: the port after them and the outputs of each. -/
def Port.run (p : Port) : List PortIn → Host.Outcome (Port × List PortOut) Fault Refusal
  | [] => .next (p, [])
  | i :: is =>
    match p.tick i with
    | .next (p', o) =>
      match p'.run is with
      | .next (p'', os) => .next (p'', o :: os)
      | .fault r => .fault r
      | .refused r => .refused r
    | .fault r => .fault r
    | .refused r => .refused r

/-- What an observer of the signals alone sees happen at the port (R109): a reset in each cycle with `rst = 1`, and a
command in each cycle with `rsp_valid = 1`, namely the one accepted last; a command accepted and then abandoned by a
reset is not among them. `pending` is the command accepted and not yet answered. -/
def transcript (pending : Option CmdWord) : List (PortIn × PortOut) → List HostEvent
  | [] => []
  | (i, o) :: rest =>
    if i.rst then .reset :: transcript none rest
    else if o.rspValid then (pending.map HostEvent.command).toList ++ transcript none rest
    else if i.cmdValid && o.cmdReady then transcript (some i.cmd) rest
    else transcript pending rest

/-- The response words an observer captures, in order (R34, R113). -/
def captured (os : List PortOut) : List RspWord := (os.filter (·.rspValid)).map (·.rsp)

end Sys2Proof.Machine
end

