-- ==== Sys2Proof/Machine/Sample.lean ====
section
/-! DEFINITION. The host procedure `sample(preferred_unit)` as R90 writes it over the block's commands. It is no command:
it is what a host does, deciding by the responses it gets. -/

namespace Sys2Proof.Machine

/-- The preferred unit of `sample()` (R90). -/
inductive TempUnit where
  | celsius
  | fahrenheit
  deriving DecidableEq, Repr

/-- The read command of a unit: RDTC or RDTF (R84, R85, R90). -/
def TempUnit.readCommand : TempUnit → Instr
  | .celsius => .rdtc
  | .fahrenheit => .rdtf

/-- The host issues a command and looks at its response. -/
def issue (i : Instr) (s : State) : Option (RspWord × State) :=
  match runCommand (encode i) s with
  | .next s' => s'.outputs.getLast?.map fun r => (r, s')
  | .fault _ => none
  | .refused _ => none

/-- `DOUT[4]` of a response of RDFLG or FRAME: `READY` (R17, R90). -/
def rspReady (r : RspWord) : Bool := r.getLsbD 4

/-- Read both quantities: RDTC or RDTF, then RDRH (R90). -/
def readBoth (u : TempUnit) (s : State) : Option ((Milli × Milli) × State) :=
  match issue u.readCommand s with
  | none => none
  | some (rt, s1) =>
    match issue .rdrh s1 with
    | none => none
    | some (rh, s2) => some ((rspDout rt, rspDout rh), s2)

/-- The second half of `sample()` (R90): issue FRAME with the six bytes of the bus read; read both if `DOUT[4]` is 1,
else issue no read command and return nothing. -/
def fetchThenRead (u : TempUnit) (t h : Channel) (s : State) : Option (Option (Milli × Milli) × State) :=
  match issue (.frame t.p0 t.p1 t.c h.p0 h.p1 h.c) s with
  | none => none
  | some (r, s1) =>
    if rspReady r then (readBoth u s1).map fun (v, s2) => (some v, s2) else some (none, s1)

/-- `sample(preferred_unit)` (R90), `t` and `h` being the channels a bus read would deliver if it came to one. -/
def sample (u : TempUnit) (t h : Channel) (s : State) : Option (Option (Milli × Milli) × State) :=
  match issue .rdflg s with
  | none => none
  | some (r, s1) =>
    if rspReady r then (readBoth u s1).map fun (v, s2) => (some v, s2) else fetchThenRead u t h s1

end Sys2Proof.Machine
end

