-- ==== Sys2Proof/Safety.lean ====
section
/-! DEFINITION. The terms claims are stated in: agreement of registers, legal values of the result registers, and the
nearest thousandth. -/

namespace Sys2Proof.Machine

/-- `n` is the value of `num / den` rounded to the nearest integer (R66): it is within half of one of it, strictly, since
no tie occurs. -/
def IsNearest (n num den : Int) : Prop := 2 * (den * n - num) < den ∧ 2 * (num - den * n) < den

/-- The seven registers of R13 agree. -/
def SameRegisters (s t : State) : Prop :=
  t.tc = s.tc ∧ t.tf = s.tf ∧ t.rh = s.rh ∧ t.tv = s.tv ∧ t.hv = s.hv ∧ t.trdy = s.trdy ∧ t.hrdy = s.hrdy

/-- The four stored flags agree (R17). -/
def SameFlags (s t : State) : Prop := t.tv = s.tv ∧ t.hv = s.hv ∧ t.trdy = s.trdy ∧ t.hrdy = s.hrdy

/-- The host's side agrees: what it will do, and how many resets there were. -/
def SameHost (s t : State) : Prop := t.inputs = s.inputs ∧ t.resets = s.resets

/-- `TC` and `TF` hold what one code converts to (R23). -/
def State.TemperatureConverted (s : State) : Prop := ∃ c : Code, s.tc = cvtTc c ∧ s.tf = cvtTf c

/-- `RH` holds what some code converts to (R16). -/
def State.HumidityConverted (s : State) : Prop := ∃ c : Code, s.rh = cvtRh c

/-- The result registers hold nothing but converted codes or the last reset's free values, and a set flag says that they
hold converted codes (R14 to R16, R21 to R23, R26). -/
structure State.Inv (s : State) : Prop where
  temperature :
    s.TemperatureConverted ∨ (s.tc = Config.resetTc (s.resets - 1) ∧ s.tf = Config.resetTf (s.resets - 1))
  humidity : s.HumidityConverted ∨ s.rh = Config.resetRh (s.resets - 1)
  temperatureFlagged : s.tv = true ∨ s.trdy = true → s.TemperatureConverted
  humidityFlagged : s.hv = true ∨ s.hrdy = true → s.HumidityConverted

/-- How many of the host's events are commands: each is owed one response (R34). -/
def commandCount (es : List HostEvent) : Nat := (es.filter fun e => e != .reset).length

/-- The clock inputs `is` leave the port alone as far as reset goes. -/
def NoReset (is : List PortIn) : Prop := ∀ i ∈ is, i.rst = false

end Sys2Proof.Machine
end

