-- ==== Sys2Proof/Certificates/Slice0/Obligations.lean ====
section
/-! DEFINITION. The statements for the provers, drawn from the numbered rules of spec/. Most give the next state of a
command whole, so that each says its frame too: a field not named in `{ s with … }` is unchanged. -/

open Sys2Proof Sys2Proof.Machine

/-! ### Encoding -/

/-- R40, R41, R44: the decoder reads back every command the encoder writes, with every operand. -/
def Obligations.DecodeOfEncode : Prop := ∀ i : Instr, decode (encode i) = .ok i

/-- R46, R47: a word the decoder accepts is the word of the command it gives, so no bit of it is dropped. -/
def Obligations.EncodeOfDecode : Prop := ∀ (w : CmdWord) (i : Instr), decode w = .ok i → encode i = w

/-- R47: a word one row of the opcode table selects is that row's command; a word no row selects is illegal; no word
is selected twice. The answer to an illegal word is the spec's own decision D11. -/
def Obligations.DecodeFollowsTable : Prop :=
  ∀ (w : CmdWord) (s : State),
    match rowsOf w with
    | [r] => ∃ i, decode w = .ok i ∧ mnemonicOf i = r.mnemonic ∧ runCommand w s = exec i s
    | [] => runCommand w s = .next { s with outputs := s.outputs ++ [0x800000#24] }
    | _ => False

/-- R45: a reserved opcode is illegal whatever the data field holds. The spec's own decision D11. -/
def Obligations.ReservedOpcodesIllegal : Prop :=
  ∀ (op : BitVec 4) (data : BitVec 48) (s : State), op ∈ [0x0#4, 0xC#4, 0xD#4, 0xE#4, 0xF#4] →
    decode (op ++ data) = .error (.reservedOpcode op) ∧ legalWord (op ++ data) = false ∧
      runCommand (op ++ data) s = .next { s with outputs := s.outputs ++ [0x800000#24] }

/-- R46: with a legal opcode, a word is legal exactly when the must-be-zero bits of its format are zero; the number of
legal words. The spec's own decision D11. -/
def Obligations.StrayBitsIllegal : Prop :=
  (∀ data : BitVec 48,
    (∀ op ∈ [0x1#4, 0x3#4, 0x4#4, 0x5#4], legalWord (op ++ data) = true ↔ data.extractLsb' 16 32 = 0#32) ∧
    (∀ op ∈ [0x2#4, 0x7#4], legalWord (op ++ data) = true ↔ data.extractLsb' 24 24 = 0#24) ∧
    (∀ op ∈ [0x8#4, 0x9#4, 0xA#4, 0xB#4], legalWord (op ++ data) = true ↔ data = 0#48) ∧
    legalWord (0x6#4 ++ data) = true) ∧
  Nat.card { w : CmdWord // legalWord w = true } = 4 * 2 ^ 16 + 2 * 2 ^ 24 + 2 ^ 48 + 4

/-- R40, R52: the fields of a command word; its 13-digit spelling, the first digit `op`; the eleven spelled words. -/
def Obligations.SpelledWordsDecode : Prop :=
  (∀ w : CmdWord, opOf w ++ dataOf w = w ∧
    commandText w = '0' :: 'x' :: hexChar (opOf w).toNat :: hexText 12 (dataOf w).toNat) ∧
  decode 0x100000000BEEF = .ok (.crc8 0xBE 0xEF) ∧
  decode 0x2000000BEEF92 = .ok (.verify 0xBE 0xEF 0x92) ∧
  decode 0x3000000006666 = .ok (.cvtc 0x6666) ∧
  decode 0x4000000006666 = .ok (.cvtf 0x6666) ∧
  decode 0x5000000006666 = .ok (.cvrh 0x6666) ∧
  decode 0x6666693666693 = .ok (.frame 0x66 0x66 0x93 0x66 0x66 0x93) ∧
  decode 0x70000008010E1 = .ok (.vstat 0x80 0x10 0xE1) ∧
  decode 0x8000000000000 = .ok .rdtc ∧
  decode 0x9000000000000 = .ok .rdtf ∧
  decode 0xA000000000000 = .ok .rdrh ∧
  decode 0xB000000000000 = .ok .rdflg

/-- R52: reading the 13-digit spelling of a word gives the word, and no two response words are spelled alike (R53). -/
def Obligations.SpellingReadsBack : Prop :=
  (∀ w : CmdWord, readCommand (commandText w) = some w ∧ (commandText w).length = 15) ∧
  ∀ r q : RspWord, responseText r = responseText q → r = q

/-- R41, R50: the text of a well-formed line reads back as that line, with or without a comment after it; the line is
the directive `.reset`, or a legal word whose command has the line's operands at their written values. -/
def Obligations.WrittenLinesAreCommands : Prop :=
  ∀ l : AsmLine, l.wellFormed = true →
    readLine (lineText l) = some [l] ∧ (∀ comment, readLine (lineText l ++ ' ' :: ';' :: comment) = some [l]) ∧
    match l, lineMeaning l with
    | .reset, e => e = .reset
    | .crc8 p0 p1, .command w =>
      ∃ a b : Byte, decode w = .ok (.crc8 a b) ∧ a.toNat = p0 ∧ b.toNat = p1
    | .verify p0 p1 c, .command w =>
      ∃ a b d : Byte, decode w = .ok (.verify a b d) ∧ a.toNat = p0 ∧ b.toNat = p1 ∧ d.toNat = c
    | .cvtc n, .command w => ∃ code : Code, decode w = .ok (.cvtc code) ∧ code.toNat = n
    | .cvtf n, .command w => ∃ code : Code, decode w = .ok (.cvtf code) ∧ code.toNat = n
    | .cvrh n, .command w => ∃ code : Code, decode w = .ok (.cvrh code) ∧ code.toNat = n
    | .frame b0 b1 b2 b3 b4 b5, .command w =>
      ∃ a b c d e f : Byte, decode w = .ok (.frame a b c d e f) ∧ a.toNat = b0 ∧ b.toNat = b1 ∧ c.toNat = b2 ∧
        d.toNat = b3 ∧ e.toNat = b4 ∧ f.toNat = b5
    | .vstat s0 s1 c, .command w =>
      ∃ a b d : Byte, decode w = .ok (.vstat a b d) ∧ a.toNat = s0 ∧ b.toNat = s1 ∧ d.toNat = c
    | .rdtc, .command w => decode w = .ok .rdtc
    | .rdtf, .command w => decode w = .ok .rdtf
    | .rdrh, .command w => decode w = .ok .rdrh
    | .rdflg, .command w => decode w = .ok .rdflg
    | _, .reset => False

/-! ### Steps, order, illegal words -/

/-- R10, R19, R47: a step takes the host's next word from the front of `inputs` and is `exec` of the command it
decodes to; `withFetchWord` puts a word there. -/
def Obligations.StepRunsDecodedCommand : Prop :=
  ∀ (s : State) (w : CmdWord) (i : Instr), decode w = .ok i →
    (∀ es, s.inputs = .command w :: es → step s = exec i { s with inputs := es }) ∧
      step (s.withFetchWord 52 w.toNat) = exec i s

/-- R93: an illegal word is answered 0x800000, changes no register, and the block takes the next command as usual. The
spec's own decision D11. -/
def Obligations.IllegalWordAnswered : Prop :=
  ∀ (s : State) (w : CmdWord) (es : List HostEvent), s.inputs = .command w :: es → legalWord w = false →
    step s = .next { s with inputs := es, outputs := s.outputs ++ [responseWord true false false false 0#20] } ∧
      responseWord true false false false 0#20 = 0x800000#24

/-- R91, R94, R97: no word, no reset and no state stops the block: every step answers a next state. -/
def Obligations.StepNeverStops : Prop := ∀ s : State, ∃ t, step s = .next t ∧ t.inputs = s.inputs.tail

/-- R34, R109: a run takes the host's events in order, each before the next, and ends with one response per command,
after all earlier responses. -/
def Obligations.RunAnswersInOrder : Prop :=
  ∀ (s : State) (e : HostEvent) (es : List HostEvent), s.inputs = e :: es →
    (∃ t, runEvent e { s with inputs := es } = .next t ∧ t.inputs = es ∧
      Host.Core.run core (es.length + 1) s = Host.Core.run core es.length t) ∧
    ∃ u rs, Host.Core.run core (es.length + 1) s = .next u ∧ u.inputs = [] ∧ u.outputs = s.outputs ++ rs ∧
      rs.length = commandCount (e :: es)

/-- R104, R120: with no command waiting the block holds its state, for any number of steps. -/
def Obligations.IdleBlockHoldsState : Prop :=
  ∀ (s : State) (n : Nat), s.inputs = [] → Host.Core.run core n s = .next s

/-! ### Checksum -/

/-- R56: the table form, with the table as 95_test_vectors.md lists it: each entry is R55's algorithm run on one byte
from 0, and two look-ups give the checksum. -/
def Obligations.ChecksumTableForm : Prop :=
  (∀ x : Byte, crcT x = crcRun 0x00#8 [x]) ∧
  (∀ b0 b1 : Byte, crc8 b0 b1 = crcT (crcT (0xFF#8 ^^^ b0) ^^^ b1)) ∧
  crcT 0x00 = 0x00 ∧ crcT 0x01 = 0x31 ∧ crcT 0x80 = 0x7A ∧ crcT 0xFF = 0xAC

/-- R57: CRC8 answers the zero-extended checksum and changes nothing else. -/
def Obligations.CrcCommandCompletes : Prop :=
  (∀ (p0 p1 : Byte) (s : State),
    exec (.crc8 p0 p1) s = .next { s with outputs := s.outputs ++ [0#16 ++ crc8 p0 p1] } ∧
    encode (.crc8 p0 p1) = 0x1#4 ++ 0#32 ++ p0 ++ p1) ∧
  crc8 0x00 0x00 = 0x81 ∧ crc8 0xFF 0x00 = 0x00 ∧ crc8 0xFF 0xFF = 0xAC ∧ crc8 0xBE 0xEF = 0x92

/-- R58: VERIFY answers 1 exactly when the checksum is the expected one, else 0, with no warning either way, and
changes nothing else. That it never warns is the spec's own decision D22. -/
def Obligations.VerifyCommandCompletes : Prop :=
  ∀ (p0 p1 c : Byte) (s : State),
    exec (.verify p0 p1 c) s =
      .next { s with outputs := s.outputs ++ [if crc8 p0 p1 = c then 0x000001#24 else 0x000000#24] } ∧
    encode (.verify p0 p1 c) = 0x2#4 ++ 0#24 ++ p0 ++ p1 ++ c

/-- R59 (a): VERIFY accepts the right checksum and rejects each of its single-bit flips. -/
def Obligations.VerifyRoundTrip : Prop :=
  ∀ (p0 p1 : Byte) (s : State),
    exec (.verify p0 p1 (crc8 p0 p1)) s = .next { s with outputs := s.outputs ++ [0x000001#24] } ∧
    ∀ k < 8, exec (.verify p0 p1 (crc8 p0 p1 ^^^ (1#8 <<< k))) s =
      .next { s with outputs := s.outputs ++ [0x000000#24] }

/-- R59 (b): the algorithm over a payload and its checksum ends at 0. -/
def Obligations.ChecksumResidueZero : Prop := ∀ p0 p1 : Byte, crcRun 0xFF#8 [p0, p1, crc8 p0 p1] = 0x00#8

/-- R59 (c): changing the payload by a difference changes the checksum by the difference's own linear image `L`; `L`
is linear, and for each first byte exactly one second byte has image 0 (256 differences in all). -/
def Obligations.ChecksumAffine : Prop :=
  (∀ a0 a1 d0 d1 : Byte, crc8 (a0 ^^^ d0) (a1 ^^^ d1) = crc8 a0 a1 ^^^ crcRun 0x00#8 [d0, d1]) ∧
  (∀ d0 d1 e0 e1 : Byte,
    crcRun 0x00#8 [d0 ^^^ e0, d1 ^^^ e1] = crcRun 0x00#8 [d0, d1] ^^^ crcRun 0x00#8 [e0, e1]) ∧
  ∀ d0 : Byte, ∃! d1 : Byte, crcRun 0x00#8 [d0, d1] = 0x00#8

/-- R59 (d): on the 24 bits of a channel, whether a corrupted channel passes depends on the error pattern alone, and
every pattern of one or two flipped bits is detected. -/
def Obligations.SmallErrorsDetected : Prop :=
  let ok : BitVec 24 → Bool := fun x => chk (x.extractLsb' 16 8) (x.extractLsb' 8 8) (x.extractLsb' 0 8)
  (∀ x y e : BitVec 24, ok x = true → ok y = true → ok (x ^^^ e) = ok (y ^^^ e)) ∧
  ∀ (x : BitVec 24) (i j : Fin 24), ok x = true → ok (x ^^^ (1#24 <<< i.val ||| 1#24 <<< j.val)) = false

/-- R59 (e): every checksum value is reached from every first byte by exactly one second byte, so by exactly 256
payloads. -/
def Obligations.ChecksumUniform : Prop := ∀ v b0 : Byte, ∃! b1 : Byte, crc8 b0 b1 = v

/-- R62, R83 (a), (b): a frame of six 0x00 bytes and a frame of six 0xFF bytes fail in both channels: both valid flags
are cleared, both warnings given, all else kept. That the ready flags, and the ready image of the response, are kept
is the spec's own decision D9 (log entry 9). -/
def Obligations.BrokenBusFramesFail : Prop :=
  ∀ s : State, ∀ b ∈ [0x00#8, 0xFF#8], exec (.frame b b b b b b) s =
    .next { s with
      tv := false
      hv := false
      outputs := s.outputs ++
        [0x3#4 ++ 0#15 ++ BitVec.ofBool (s.trdy && s.hrdy) ++ BitVec.ofBool s.hrdy ++ BitVec.ofBool s.trdy ++ 0#2] }

/-! ### Conversions -/

/-- R63, R64, R65: the three conversions as the rules' floor formulas over the rationals, with their ranges. The width
and representation are the spec's own decision D5, the rounding R66 its own decision D6 (log entry 10). -/
def Obligations.ConversionFormulas : Prop :=
  ∀ code : Code,
    (cvtTc code).toInt = -45000 + ⌊(350000 * (code.toNat : ℚ) + 65535) / 131070⌋ ∧
    (cvtTf code).toInt = -49000 + ⌊(630000 * (code.toNat : ℚ) + 65535) / 131070⌋ ∧
    (cvtRh code).toInt = ⌊(200000 * (code.toNat : ℚ) + 65535) / 131070⌋ ∧
    -45000 ≤ (cvtTc code).toInt ∧ (cvtTc code).toInt ≤ 130000 ∧
    -49000 ≤ (cvtTf code).toInt ∧ (cvtTf code).toInt ≤ 266000 ∧
    0 ≤ (cvtRh code).toInt ∧ (cvtRh code).toInt ≤ 100000

/-- R67: CVTC answers `cvt_tc(code)` and changes nothing else; the sign bit is 1 exactly up to code 0x41D3. -/
def Obligations.CvtcCommandCompletes : Prop :=
  (∀ (code : Code) (s : State),
    exec (.cvtc code) s = .next { s with outputs := s.outputs ++ [0#4 ++ cvtTc code] } ∧
    ((cvtTc code).getLsbD 19 = true ↔ code.toNat ≤ 0x41D3) ∧
    encode (.cvtc code) = 0x3#4 ++ 0#32 ++ code) ∧
  cvtTc 0x0000 = 0xF5038 ∧ cvtTc 0xFFFF = 0x1FBD0 ∧ cvtTc 0x0001 = 0xF503B ∧ cvtTc 0x6666 = 0x061A8

/-- R68: CVTF answers `cvt_tf(code)` and changes nothing else; no result of any of the three conversions is larger
than 266000. -/
def Obligations.CvtfCommandCompletes : Prop :=
  (∀ (code : Code) (s : State),
    exec (.cvtf code) s = .next { s with outputs := s.outputs ++ [0#4 ++ cvtTf code] } ∧
    (cvtTf code).toInt ≤ 266000 ∧ (cvtTc code).toInt ≤ 266000 ∧ (cvtRh code).toInt ≤ 266000 ∧
    encode (.cvtf code) = 0x4#4 ++ 0#32 ++ code) ∧
  cvtTf 0x0000 = 0xF4098 ∧ cvtTf 0xFFFF = 0x40F10 ∧ cvtTf 0x0001 = 0xF409D ∧ cvtTf 0x6666 = 0x12CC8

/-- R69: CVRH answers `cvt_rh(code)`, never negative, and changes nothing else. -/
def Obligations.CvrhCommandCompletes : Prop :=
  (∀ (code : Code) (s : State),
    exec (.cvrh code) s = .next { s with outputs := s.outputs ++ [0#4 ++ cvtRh code] } ∧
    (cvtRh code).getLsbD 19 = false ∧
    encode (.cvrh code) = 0x5#4 ++ 0#32 ++ code) ∧
  cvtRh 0x0000 = 0x00000 ∧ cvtRh 0xFFFF = 0x186A0 ∧ cvtRh 0x0001 = 0x00002 ∧ cvtRh 0x8000 = 0x0C351 ∧
  cvtRh 0x6666 = 0x09C40

/-- R66, R72 (c): each result is the number of thousandths nearest to the exact value, strictly nearer than half of
one, so that no tie occurs. Rounding to nearest is the spec's own decision D6 (log entry 10). -/
def Obligations.ConversionsRoundToNearest : Prop :=
  ∀ code : Code,
    IsNearest ((cvtTc code).toInt + 45000) (175000 * code.toNat) 65535 ∧
    IsNearest ((cvtTf code).toInt + 49000) (315000 * code.toNat) 65535 ∧
    IsNearest (cvtRh code).toInt (100000 * code.toNat) 65535

/-- R70: the numerators fit 35, 36 and 34 bits, the quotients are at most 175000, 315000 and 100000, and `to_s20`
never wraps. -/
def Obligations.ConversionsNeverOverflow : Prop :=
  ∀ code : Code,
    350000 * code.toNat + 65535 ≤ 22937315535 ∧ 630000 * code.toNat + 65535 ≤ 41287115535 ∧
    200000 * code.toNat + 65535 ≤ 13107065535 ∧
    scaled 350000 code ≤ 175000 ∧ scaled 630000 code ≤ 315000 ∧ scaled 200000 code ≤ 100000 ∧
    (cvtTc code).toInt = -45000 + scaled 350000 code ∧ (cvtTf code).toInt = -49000 + scaled 630000 code ∧
    (cvtRh code).toInt = scaled 200000 code

/-- R71: the boundary values, in this block's representation. -/
def Obligations.ConversionBoundaries : Prop :=
  cvtTc 0x0000 = 0xF5038 ∧ cvtTc 0xFFFF = 0x1FBD0 ∧ cvtTf 0x0000 = 0xF4098 ∧ cvtTf 0xFFFF = 0x40F10 ∧
  cvtRh 0x0000 = 0x00000 ∧ cvtRh 0xFFFF = 0x186A0 ∧
  (cvtTc 0x0000).toInt = -45000 ∧ (cvtTc 0xFFFF).toInt = 130000 ∧ (cvtTf 0x0000).toInt = -49000 ∧
  (cvtTf 0xFFFF).toInt = 266000 ∧ (cvtRh 0x0000).toInt = 0 ∧ (cvtRh 0xFFFF).toInt = 100000

/-- R72 (a): consecutive codes differ by 2 or 3 thousandths in °C, 4 or 5 in °F, 1 or 2 in humidity. -/
def Obligations.ConversionSteps : Prop :=
  ∀ code : Code, code.toNat < 65535 →
    ((cvtTc (code + 1)).toInt - (cvtTc code).toInt = 2 ∨ (cvtTc (code + 1)).toInt - (cvtTc code).toInt = 3) ∧
    ((cvtTf (code + 1)).toInt - (cvtTf code).toInt = 4 ∨ (cvtTf (code + 1)).toInt - (cvtTf code).toInt = 5) ∧
    ((cvtRh (code + 1)).toInt - (cvtRh code).toInt = 1 ∨ (cvtRh (code + 1)).toInt - (cvtRh code).toInt = 2)

/-- R72 (a), (b), (e): distinct codes have distinct results; the result is the exact value only at the multiples of
13107 (°C, humidity) or 4369 (°F); 0.000 °C comes from code 0x41D4 alone. -/
def Obligations.ConversionsExactAndDistinct : Prop :=
  (∀ a b : Code, cvtTc a = cvtTc b ∨ cvtTf a = cvtTf b ∨ cvtRh a = cvtRh b → a = b) ∧
  ∀ code : Code,
    (65535 * ((cvtTc code).toInt + 45000) = 175000 * code.toNat ↔ 13107 ∣ code.toNat) ∧
    (65535 * ((cvtTf code).toInt + 49000) = 315000 * code.toNat ↔ 4369 ∣ code.toNat) ∧
    (65535 * (cvtRh code).toInt = 100000 * code.toNat ↔ 13107 ∣ code.toNat) ∧
    ((cvtTc code).toInt = 0 ↔ code = 0x41D4)

/-- R23, R72 (d): converting the rounded °C value (to the nearest, 1.8 x TC + 32000 being `(9 TC + 160000) / 5`)
misses `cvt_tf` by exactly one thousandth at some codes, code 2 among them, and never by more. -/
def Obligations.FahrenheitNotRescaledCelsius : Prop :=
  let rescaled : Code → Int := fun code => (2 * (9 * (cvtTc code).toInt + 160000) + 5) / 10
  (∀ code : Code, (cvtTf code).toInt - rescaled code = 0 ∨ (cvtTf code).toInt - rescaled code = 1 ∨
    (cvtTf code).toInt - rescaled code = -1) ∧
  (cvtTc 2).toInt = -44995 ∧ (cvtTf 2).toInt = -48990 ∧ rescaled 2 = -48991

/-! ### FRAME -/

/-- R76: FRAME, whole: every register, every flag, both warnings and the flags image after the writes. That a failed
channel keeps its ready flag is the spec's own decision D9 (log entry 9), that the response carries the flags image
its decision D21, that the warnings are response bits its decision D13. -/
def Obligations.FrameCommandCompletes : Prop :=
  ∀ (b0 b1 b2 b3 b4 b5 : Byte) (s : State),
    let tOk := crc8 b0 b1 == b2
    let hOk := crc8 b3 b4 == b5
    let trdy := tOk || s.trdy
    let hrdy := hOk || s.hrdy
    exec (.frame b0 b1 b2 b3 b4 b5) s =
      .next { s with
        tc := if tOk then cvtTc (b0 ++ b1) else s.tc
        tf := if tOk then cvtTf (b0 ++ b1) else s.tf
        rh := if hOk then cvtRh (b3 ++ b4) else s.rh
        tv := tOk
        hv := hOk
        trdy := trdy
        hrdy := hrdy
        outputs := s.outputs ++
          [0#2 ++ BitVec.ofBool (!hOk) ++ BitVec.ofBool (!tOk) ++ 0#15 ++ BitVec.ofBool (trdy && hrdy) ++
            BitVec.ofBool hrdy ++ BitVec.ofBool trdy ++ BitVec.ofBool hOk ++ BitVec.ofBool tOk] } ∧
    encode (.frame b0 b1 b2 b3 b4 b5) = 0x6#4 ++ b0 ++ b1 ++ b2 ++ b3 ++ b4 ++ b5

/-- R77: a channel that fails leaves its result registers, whatever becomes of the other channel, which is written if
it passed; and the failed channel's bytes influence nothing: any other failing bytes give the same next state. -/
def Obligations.StaleOnInvalid : Prop :=
  ∀ (b0 b1 b2 b3 b4 b5 : Byte) (s : State), ∃ t, exec (.frame b0 b1 b2 b3 b4 b5) s = .next t ∧
    (chk b0 b1 b2 = false → t.tc = s.tc ∧ t.tf = s.tf ∧ (chk b3 b4 b5 = true → t.rh = cvtRh (b3 ++ b4)) ∧
      ∀ a0 a1 a2 : Byte, chk a0 a1 a2 = false → exec (.frame a0 a1 a2 b3 b4 b5) s = .next t) ∧
    (chk b3 b4 b5 = false →
      t.rh = s.rh ∧ (chk b0 b1 b2 = true → t.tc = cvtTc (b0 ++ b1) ∧ t.tf = cvtTf (b0 ++ b1)) ∧
      ∀ a3 a4 a5 : Byte, chk a3 a4 a5 = false → exec (.frame b0 b1 b2 a3 a4 a5) s = .next t)

/-- R79: FRAME gives one warning per failed channel and no other event (the spec's own decision D13); right after it the
valid flags are the warnings' complements; the next FRAME overwrites both and its outcome does not depend on what they
were. What keeps them in between is `ValidFlagLifeCycle`. -/
def Obligations.FrameWarnings : Prop :=
  ∀ (b0 b1 b2 b3 b4 b5 : Byte) (s : State), ∃ t r, exec (.frame b0 b1 b2 b3 b4 b5) s = .next t ∧
    t.outputs = s.outputs ++ [r] ∧ rspWt r = !(chk b0 b1 b2) ∧ rspWh r = !(chk b3 b4 b5) ∧ rspWs r = false ∧
    rspIll r = false ∧ t.tv = !(rspWt r) ∧ t.hv = !(rspWh r) ∧
    ∀ v w : Bool, exec (.frame b0 b1 b2 b3 b4 b5) { s with tv := v, hv := w } = .next t

/-- R36, R83 (c): the same FRAME twice leaves the same registers as once and gives the same response. -/
def Obligations.FrameIdempotent : Prop :=
  ∀ (b0 b1 b2 b3 b4 b5 : Byte) (s : State), ∃ t u r,
    exec (.frame b0 b1 b2 b3 b4 b5) s = .next t ∧ exec (.frame b0 b1 b2 b3 b4 b5) t = .next u ∧
    t.outputs = s.outputs ++ [r] ∧ u = { t with outputs := s.outputs ++ [r, r] }

/-- R75: the channel check, and the checks of a frame: each is that of its own channel's bytes, which FRAME leaves in
`TV` and `HV` (R21), and in every state, for each of the four combinations, some frame has it. -/
def Obligations.ChannelChecksIndependent : Prop :=
  (∀ p0 p1 c : Byte, chk p0 p1 c = (crc8 p0 p1 == c)) ∧
  (∀ (b0 b1 b2 b3 b4 b5 : Byte) (s : State), ∃ t, exec (.frame b0 b1 b2 b3 b4 b5) s = .next t ∧
    t.tv = chk b0 b1 b2 ∧ t.hv = chk b3 b4 b5) ∧
  ∀ (s : State) (x y : Bool), ∃ (b0 b1 b2 b3 b4 b5 : Byte) (t : State),
    exec (.frame b0 b1 b2 b3 b4 b5) s = .next t ∧ t.tv = x ∧ t.hv = y

/-- R26, R115: after a frame whose channels both pass, no register and no response depends on what the registers held
before, the free values of reset among it. -/
def Obligations.GoodFrameForgetsOldState : Prop :=
  ∀ (b0 b1 b2 b3 b4 b5 : Byte) (s s' : State), chk b0 b1 b2 = true → chk b3 b4 b5 = true →
    ∃ t t' r, exec (.frame b0 b1 b2 b3 b4 b5) s = .next t ∧ exec (.frame b0 b1 b2 b3 b4 b5) s' = .next t' ∧
      SameRegisters t t' ∧ t.outputs = s.outputs ++ [r] ∧ t'.outputs = s'.outputs ++ [r]

/-! ### VSTAT -/

/-- R80, R82: VSTAT answers the status word, or the sentinel with the warning `WS`, and changes nothing else. The byte
order of the status word is the spec's own decision D12, taken from general knowledge (log entry 8), the warning bit
its decision D13. -/
def Obligations.VstatCommandCompletes : Prop :=
  ∀ (p0 p1 c : Byte) (s : State),
    exec (.vstat p0 p1 c) s =
      .next { s with outputs := s.outputs ++ [if crc8 p0 p1 = c then 0#8 ++ p0 ++ p1 else 0x40FFFF#24] } ∧
    encode (.vstat p0 p1 c) = 0x7#4 ++ 0#24 ++ p0 ++ p1 ++ c

/-- R81: `WS` tells a corrupt frame from a genuine status of 0xFFFF: `DOUT` is 0xFFFF in both cases, `WS = 1` always
means corrupt, and the genuine one is the frame 0xFF, 0xFF, 0xAC alone. The bit `WS` is the spec's own decision D13.
-/
def Obligations.SentinelToldByWarning : Prop :=
  ∀ (p0 p1 c : Byte) (s : State), ∃ t r, exec (.vstat p0 p1 c) s = .next t ∧ t.outputs = s.outputs ++ [r] ∧
    (rspWs r = true ↔ chk p0 p1 c = false) ∧ (rspWs r = true → r = 0x40FFFF#24) ∧
    (rspDout r = 0x0FFFF#20 ∧ rspWs r = false ↔ p0 = 0xFF ∧ p1 = 0xFF ∧ c = 0xAC)

/-! ### Read-out -/

/-- R84: RDTC answers `TC` and clears `TRDY`, in any state. -/
def Obligations.RdtcCommandCompletes : Prop :=
  ∀ s : State, exec .rdtc s = .next { s with trdy := false, outputs := s.outputs ++ [0#4 ++ s.tc] } ∧
    encode .rdtc = 0x8000000000000

/-- R85: RDTF answers `TF` and clears `TRDY`, in any state. -/
def Obligations.RdtfCommandCompletes : Prop :=
  ∀ s : State, exec .rdtf s = .next { s with trdy := false, outputs := s.outputs ++ [0#4 ++ s.tf] } ∧
    encode .rdtf = 0x9000000000000

/-- R86: RDRH answers `RH` and clears `HRDY`, in any state. -/
def Obligations.RdrhCommandCompletes : Prop :=
  ∀ s : State, exec .rdrh s = .next { s with hrdy := false, outputs := s.outputs ++ [0#4 ++ s.rh] } ∧
    encode .rdrh = 0xA000000000000

/-- R17, R18, R87: RDFLG answers the flags image, with `READY` the conjunction of the two ready flags, and changes
nothing else. The layout is the spec's own decision D8. -/
def Obligations.RdflgCommandCompletes : Prop :=
  ∀ s : State, ∃ r : RspWord, exec .rdflg s = .next { s with outputs := s.outputs ++ [r] } ∧
    r.getLsbD 0 = s.tv ∧ r.getLsbD 1 = s.hv ∧ r.getLsbD 2 = s.trdy ∧ r.getLsbD 3 = s.hrdy ∧
    r.getLsbD 4 = (s.trdy && s.hrdy) ∧ r.toNat < 32 ∧ encode .rdflg = 0xB000000000000

/-! ### The whole machine -/

/-- R20, R24, R36, R61: CRC8, VERIFY, the conversions and VSTAT give in every state the same response, and leave every
register, of any state, as it was. -/
def Obligations.PureCommandsIgnoreState : Prop :=
  ∀ i : Instr, (∃ a b, i = .crc8 a b) ∨ (∃ a b c, i = .verify a b c) ∨ (∃ c, i = .cvtc c) ∨ (∃ c, i = .cvtf c) ∨
      (∃ c, i = .cvrh c) ∨ (∃ a b c, i = .vstat a b c) →
    ∃ r, ∀ s : State, exec i s = .next { s with outputs := s.outputs ++ [r] }

/-- R22, R78, R89: the whole life cycle of the ready flags, over every word and every reset: set by a FRAME whose
channel passes, cleared by the channel's reads and by reset, else kept. That a failed channel keeps its flag is the
spec's own decision D9 (log entry 9). -/
def Obligations.ReadyFlagLifeCycle : Prop :=
  ∀ s : State,
    (∀ w : CmdWord, ∃ t, runCommand w s = .next t ∧
      (t.trdy = true ↔
        (∃ b0 b1 b2 b3 b4 b5, decode w = .ok (.frame b0 b1 b2 b3 b4 b5) ∧ crc8 b0 b1 = b2) ∨
        (s.trdy = true ∧ decode w ≠ .ok .rdtc ∧ decode w ≠ .ok .rdtf)) ∧
      (t.hrdy = true ↔
        (∃ b0 b1 b2 b3 b4 b5, decode w = .ok (.frame b0 b1 b2 b3 b4 b5) ∧ crc8 b3 b4 = b5) ∨
        (s.hrdy = true ∧ decode w ≠ .ok .rdrh))) ∧
    ∃ t, runEvent .reset s = .next t ∧ t.trdy = false ∧ t.hrdy = false

/-- R21: the valid flags are written by every FRAME with its checks' results, cleared by reset, and changed by nothing
else. -/
def Obligations.ValidFlagLifeCycle : Prop :=
  ∀ s : State,
    (∀ w : CmdWord, ∃ t, runCommand w s = .next t ∧
      ((∃ b0 b1 b2 b3 b4 b5, decode w = .ok (.frame b0 b1 b2 b3 b4 b5) ∧ t.tv = chk b0 b1 b2 ∧ t.hv = chk b3 b4 b5) ∨
       ((∀ b0 b1 b2 b3 b4 b5, decode w ≠ .ok (.frame b0 b1 b2 b3 b4 b5)) ∧ t.tv = s.tv ∧ t.hv = s.hv))) ∧
    ∃ t, runEvent .reset s = .next t ∧ t.tv = false ∧ t.hv = false

/-- R14 to R16, R20, R23: a FRAME whose temperature channel passes writes `TC` and `TF` together from its one code,
and any other command leaves both; a FRAME whose humidity channel passes writes `RH`, and any other command leaves it.
-/
def Obligations.ResultRegistersOnlyByFrame : Prop :=
  ∀ (w : CmdWord) (s : State), ∃ t, runCommand w s = .next t ∧
    (∀ b0 b1 b2 b3 b4 b5, decode w = .ok (.frame b0 b1 b2 b3 b4 b5) → crc8 b0 b1 = b2 →
      t.tc = cvtTc (b0 ++ b1) ∧ t.tf = cvtTf (b0 ++ b1)) ∧
    ((∀ b0 b1 b2 b3 b4 b5, decode w = .ok (.frame b0 b1 b2 b3 b4 b5) → crc8 b0 b1 ≠ b2) →
      t.tc = s.tc ∧ t.tf = s.tf) ∧
    (∀ b0 b1 b2 b3 b4 b5, decode w = .ok (.frame b0 b1 b2 b3 b4 b5) → crc8 b3 b4 = b5 → t.rh = cvtRh (b3 ++ b4)) ∧
    ((∀ b0 b1 b2 b3 b4 b5, decode w = .ok (.frame b0 b1 b2 b3 b4 b5) → crc8 b3 b4 ≠ b5) → t.rh = s.rh)

/-- R92: over every word, each event bit of the response is 1 exactly when its event occurs: `WT` and `WH` in a FRAME
whose channel's checksum differs, `WS` in a VSTAT whose checksum differs (with the sentinel), `ILL` for a word no
command. The bits are the spec's own decisions D4, D11, D13. -/
def Obligations.EventBitsExact : Prop :=
  ∀ (w : CmdWord) (s : State), ∃ t r, runCommand w s = .next t ∧ t.outputs = s.outputs ++ [r] ∧
    (rspWt r = true ↔ ∃ b0 b1 b2 b3 b4 b5, decode w = .ok (.frame b0 b1 b2 b3 b4 b5) ∧ crc8 b0 b1 ≠ b2) ∧
    (rspWh r = true ↔ ∃ b0 b1 b2 b3 b4 b5, decode w = .ok (.frame b0 b1 b2 b3 b4 b5) ∧ crc8 b3 b4 ≠ b5) ∧
    (rspWs r = true ↔ ∃ p0 p1 c, decode w = .ok (.vstat p0 p1 c) ∧ crc8 p0 p1 ≠ c) ∧
    (rspWs r = true → rspDout r = 0x0FFFF#20) ∧
    (rspIll r = true ↔ legalWord w = false)

/-- R96: `ILL` excludes the other three event bits, and `WS` never occurs with `WT` or `WH`; both channel warnings can
occur together. The spec's own decision D23. -/
def Obligations.EventsNeverMix : Prop :=
  (∀ (w : CmdWord) (s : State), ∃ t r, runCommand w s = .next t ∧ t.outputs = s.outputs ++ [r] ∧
    (rspIll r = true → rspWs r = false ∧ rspWh r = false ∧ rspWt r = false) ∧
    (rspWs r = true → rspWh r = false ∧ rspWt r = false)) ∧
  ∃ (w : CmdWord) (s t : State) (r : RspWord), runCommand w s = .next t ∧ t.outputs = s.outputs ++ [r] ∧
    rspWt r = true ∧ rspWh r = true

/-- R24, R27: what the host was answered and what it will do next are no state of the block: two states with the same
registers answer a word alike and go on with the same registers. -/
def Obligations.NoHiddenState : Prop :=
  ∀ (w : CmdWord) (s s' : State), SameRegisters s s' →
    ∃ t t' r, runCommand w s = .next t ∧ runCommand w s' = .next t' ∧ SameRegisters t t' ∧
      t.outputs = s.outputs ++ [r] ∧ t'.outputs = s'.outputs ++ [r] ∧ SameHost s t ∧ SameHost s' t'

/-- R14 to R16, R21 to R23, R26: every step keeps the invariant that the result registers hold converted codes or the
last reset's values, and that a set flag means converted codes. -/
def Obligations.StepKeepsInvariant : Prop := ∀ s t : State, s.Inv → step s = .next t → t.Inv

/-- R26, R106: the invariant holds at reset. -/
def Obligations.ResetMeetsInvariant : Prop := State.reset.Inv

/-- R26, R105, R106: reset clears the four flags and takes a fresh draw of the three open parameters for the result
registers (the flags by the spec's own decision D10; the counter `resets` is the model's choice, log entry 1); RDFLG
then answers 0x000000; `State.reset` is such a state. -/
def Obligations.ResetState : Prop :=
  (∀ s : State, ∃ t, runEvent .reset s = .next t ∧
    t = { s with
      tc := Config.resetTc s.resets
      tf := Config.resetTf s.resets
      rh := Config.resetRh s.resets
      tv := false
      hv := false
      trdy := false
      hrdy := false
      resets := s.resets + 1 } ∧
    exec .rdflg t = .next { t with outputs := s.outputs ++ [0x000000#24] }) ∧
  ∀ s : State, s.resets = 0 → s.inputs = [] → s.outputs = [] → runEvent .reset s = .next State.reset

/-- R90: `sample()`, whole, by the responses it draws from the block, one per command issued (R34): if both ready
flags are set, RDFLG, the temperature read and RDRH; else RDFLG and one FRAME, then the two reads if both flags are
set after it, and nothing more if not. The values returned are those read, the flags are cleared by the reads alone,
and all else is as that one FRAME, if any, left it. The channels of the bus read are arguments (log entry 14). -/
def Obligations.SampleProcedure : Prop :=
  ∀ (u : TempUnit) (t h : Channel) (s : State),
    let temperature : State → Milli := fun v => match u with | .celsius => v.tc | .fahrenheit => v.tf
    let flagsAnswer : RspWord :=
      0#19 ++ BitVec.ofBool (s.trdy && s.hrdy) ++ BitVec.ofBool s.hrdy ++ BitVec.ofBool s.trdy ++ BitVec.ofBool s.hv ++
        BitVec.ofBool s.tv
    (s.trdy = true ∧ s.hrdy = true → sample u t h s = some (some (temperature s, s.rh),
      { s with
        trdy := false
        hrdy := false
        outputs := s.outputs ++ [flagsAnswer, 0#4 ++ temperature s, 0#4 ++ s.rh] })) ∧
    (¬(s.trdy = true ∧ s.hrdy = true) → ∃ f frameAnswer,
      exec (.frame t.p0 t.p1 t.c h.p0 h.p1 h.c) s = .next f ∧ f.outputs = s.outputs ++ [frameAnswer] ∧
      (f.trdy = true ∧ f.hrdy = true → sample u t h s = some (some (temperature f, f.rh),
        { f with
          trdy := false
          hrdy := false
          outputs := s.outputs ++ [flagsAnswer, frameAnswer, 0#4 ++ temperature f, 0#4 ++ f.rh] })) ∧
      (¬(f.trdy = true ∧ f.hrdy = true) → sample u t h s = some (none,
        { f with outputs := s.outputs ++ [flagsAnswer, frameAnswer] })))

/-! ### The clocked port -/

/-- R34, R39, R107, R109: the clocked port refines the order of commands. From any cycle after the first reset and for
any inputs, no cycle stops; the block ends where `step`, run over the commands answered and the resets seen at the
signals, ends; and the words captured are exactly that run's responses. This holds for every latency (log entry 5);
for inputs that end in the middle of a command it rests on log entry 11, by which its writes come with its response
(R33). -/
def Obligations.PortRefinesCommandRun : Prop :=
  ∀ (p : Port) (is : List PortIn), p.phase ≠ .unreset → p.block.inputs = [] →
    ∃ p' os, p.run is = .next (p', os) ∧ os.length = is.length ∧
      Host.Core.run core (transcript p.phase.pending (is.zip os)).length
        (p.block.setInputs (transcript p.phase.pending (is.zip os))) = .next p'.block ∧
      p'.block.outputs = p.block.outputs ++ captured os

/-- R39, R117: a command accepted in a cycle and not abandoned is answered exactly LAT cycles later: LAT cycles (from
the acceptance on) show no response, the next shows the response, and `cmd_ready` is 0 after the acceptance until
after it. LAT is the free value of log entry 5: the statement holds for every value of it. -/
def Obligations.ResponseAfterLatency : Prop :=
  ∀ (p : Port) (w : CmdWord) (is : List PortIn), p.phase = .idle → NoReset is → is.length = Config.lat p.cycle w →
    ∃ p' quiet r, p.run (⟨false, true, w⟩ :: is) = .next (p', quiet ++ [⟨false, true, r⟩]) ∧
      quiet.length = Config.lat p.cycle w ∧ (∀ o ∈ quiet, o.rspValid = false) ∧
      (∀ o ∈ quiet.tail, o.cmdReady = false) ∧ quiet.head?.map (·.cmdReady) = some true ∧
      p'.phase = .idle ∧ runCommand w p.block = .next p'.block ∧ p'.block.outputs = p.block.outputs ++ [r]

/-- R113: while a command is under way the command port is ignored: the cycle is the same whatever stands on it, and
the command under way stays the one accepted until it is answered. That the block is unchanged until then is log entry
11 (deduced from R33, R39 and R107). -/
def Obligations.BusyPortIgnoresCommands : Prop :=
  ∀ (p : Port) (w : CmdWord) (n : Nat) (v : Bool) (c : CmdWord), p.phase = .busy w n →
    ∃ p' o, p.tick ⟨false, v, c⟩ = .next (p', o) ∧ p.tick ⟨false, false, 0⟩ = .next (p', o) ∧ o.cmdReady = false ∧
      (o.rspValid = false → ∃ m, p'.phase = .busy w m ∧ m < n ∧ p'.block = p.block) ∧
      (o.rspValid = true → n = 0 ∧ p'.phase = .idle)

/-- R105, R107: `rst` in any cycle, in any phase, gives the reset state with no response and no acceptance
(`cmd_ready` 0); if it comes before the response of an accepted command, the block is as if the command had never been
issued. -/
def Obligations.ResetAbandonsCommand : Prop :=
  (∀ (p : Port) (v : Bool) (c : CmdWord), ∃ p' o, p.tick ⟨true, v, c⟩ = .next (p', o) ∧
    p'.block = hostReset p.block ∧ p'.phase = .starting ∧ o.cmdReady = false ∧ o.rspValid = false) ∧
  ∀ (p : Port) (w c : CmdWord) (v : Bool) (is : List PortIn), p.phase = .idle → NoReset is →
    is.length < Config.lat p.cycle w →
    ∃ p' os, p.run (⟨false, true, w⟩ :: is ++ [⟨true, v, c⟩]) = .next (p', os) ∧
      (∀ o ∈ os, o.rspValid = false) ∧ p'.block = hostReset p.block ∧ p'.phase = .starting

/-- R105, U4: before the first reset a command has no meaning and is refused (the model's choice, log entry 7); `rst`
brings the reset state, from which the port accepts commands after its first cycle with `rst = 0`. -/
def Obligations.FirstResetStartsPort : Prop :=
  ∀ (p : Port) (v : Bool) (w : CmdWord), p.phase = .unreset →
    p.tick ⟨false, true, w⟩ = .refused .beforeFirstReset ∧
    ∃ p' os, p.run [⟨true, v, w⟩, ⟨false, false, w⟩] = .next (p', os) ∧ p'.phase = .idle ∧
      p'.block = hostReset p.block ∧ captured os = [] ∧
      ∃ p'' o, p'.tick ⟨false, true, w⟩ = .next (p'', o) ∧ o.cmdReady = true ∧ p''.phase.pending = some w
end

