-- ==== Sys2Proof/Laws/Checksum.lean ====
section
/-! SUPPORT. The advance of the checksum register is linear over exclusive or and undone by no information lost; what
follows for one byte taken in. -/

namespace Sys2Proof.Machine

/-- One advance is linear over exclusive or (R55). -/
theorem crcAdvance_xor (a b : Byte) : crcAdvance (a ^^^ b) = crcAdvance a ^^^ crcAdvance b := by
  unfold crcAdvance
  rw [BitVec.getLsbD_xor, BitVec.shiftLeft_xor_distrib]
  cases a.getLsbD 7 <;> cases b.getLsbD 7 <;>
    simp only [Bool.xor_false, Bool.xor_true, Bool.not_true, Bool.not_false, Bool.false_eq_true, if_true, if_false]
  · ac_rfl
  · ac_rfl
  · rw [show a <<< 1 ^^^ crcPoly ^^^ (b <<< 1 ^^^ crcPoly) = a <<< 1 ^^^ b <<< 1 ^^^ (crcPoly ^^^ crcPoly) by ac_rfl,
      BitVec.xor_self, BitVec.xor_zero]

theorem crcAdvances_xor (n : Nat) (a b : Byte) :
    crcAdvances n (a ^^^ b) = crcAdvances n a ^^^ crcAdvances n b := by
  induction n generalizing a b with
  | zero => rfl
  | succ n ih => simp only [crcAdvances, crcAdvance_xor, ih]

/-- Taking a byte in is linear in the register and the byte together. -/
theorem crcAbsorb_xor (c d a b : Byte) : crcAbsorb (c ^^^ d) (a ^^^ b) = crcAbsorb c a ^^^ crcAbsorb d b := by
  have h : c ^^^ d ^^^ (a ^^^ b) = (c ^^^ a) ^^^ (d ^^^ b) := by ac_rfl
  simp only [crcAbsorb, h, crcAdvances_xor]

/-- Taking a byte in depends on the exclusive or of register and byte alone (R56). -/
theorem crcAbsorb_zero (c b : Byte) : crcAbsorb c b = crcAbsorb 0#8 (c ^^^ b) := by
  simp [crcAbsorb]

/-- `crc8` as two bytes taken in (R55). -/
theorem crc8_eq (b0 b1 : Byte) : crc8 b0 b1 = crcAbsorb (crcAbsorb 0xFF#8 b0) b1 := rfl

/-- The channel check is equality with the checksum (R75). -/
theorem chk_iff (p0 p1 c : Byte) : chk p0 p1 c = true ↔ crc8 p0 p1 = c := by simp [chk]

end Sys2Proof.Machine
end

