-- ==== Sys2Proof/Laws/State.lean ====
section
/-! SUPPORT. One lemma per field per update of the state, true by rfl. -/

namespace Sys2Proof.Machine

@[simp] theorem State.setTc_tc (s : State) (v : Milli) : (s.setTc v).tc = v := rfl
@[simp] theorem State.setTc_tf (s : State) (v : Milli) : (s.setTc v).tf = s.tf := rfl
@[simp] theorem State.setTc_rh (s : State) (v : Milli) : (s.setTc v).rh = s.rh := rfl
@[simp] theorem State.setTc_tv (s : State) (v : Milli) : (s.setTc v).tv = s.tv := rfl
@[simp] theorem State.setTc_hv (s : State) (v : Milli) : (s.setTc v).hv = s.hv := rfl
@[simp] theorem State.setTc_trdy (s : State) (v : Milli) : (s.setTc v).trdy = s.trdy := rfl
@[simp] theorem State.setTc_hrdy (s : State) (v : Milli) : (s.setTc v).hrdy = s.hrdy := rfl
@[simp] theorem State.setTc_resets (s : State) (v : Milli) : (s.setTc v).resets = s.resets := rfl
@[simp] theorem State.setTc_inputs (s : State) (v : Milli) : (s.setTc v).inputs = s.inputs := rfl
@[simp] theorem State.setTc_outputs (s : State) (v : Milli) : (s.setTc v).outputs = s.outputs := rfl

@[simp] theorem State.setTf_tc (s : State) (v : Milli) : (s.setTf v).tc = s.tc := rfl
@[simp] theorem State.setTf_tf (s : State) (v : Milli) : (s.setTf v).tf = v := rfl
@[simp] theorem State.setTf_rh (s : State) (v : Milli) : (s.setTf v).rh = s.rh := rfl
@[simp] theorem State.setTf_tv (s : State) (v : Milli) : (s.setTf v).tv = s.tv := rfl
@[simp] theorem State.setTf_hv (s : State) (v : Milli) : (s.setTf v).hv = s.hv := rfl
@[simp] theorem State.setTf_trdy (s : State) (v : Milli) : (s.setTf v).trdy = s.trdy := rfl
@[simp] theorem State.setTf_hrdy (s : State) (v : Milli) : (s.setTf v).hrdy = s.hrdy := rfl
@[simp] theorem State.setTf_resets (s : State) (v : Milli) : (s.setTf v).resets = s.resets := rfl
@[simp] theorem State.setTf_inputs (s : State) (v : Milli) : (s.setTf v).inputs = s.inputs := rfl
@[simp] theorem State.setTf_outputs (s : State) (v : Milli) : (s.setTf v).outputs = s.outputs := rfl

@[simp] theorem State.setRh_tc (s : State) (v : Milli) : (s.setRh v).tc = s.tc := rfl
@[simp] theorem State.setRh_tf (s : State) (v : Milli) : (s.setRh v).tf = s.tf := rfl
@[simp] theorem State.setRh_rh (s : State) (v : Milli) : (s.setRh v).rh = v := rfl
@[simp] theorem State.setRh_tv (s : State) (v : Milli) : (s.setRh v).tv = s.tv := rfl
@[simp] theorem State.setRh_hv (s : State) (v : Milli) : (s.setRh v).hv = s.hv := rfl
@[simp] theorem State.setRh_trdy (s : State) (v : Milli) : (s.setRh v).trdy = s.trdy := rfl
@[simp] theorem State.setRh_hrdy (s : State) (v : Milli) : (s.setRh v).hrdy = s.hrdy := rfl
@[simp] theorem State.setRh_resets (s : State) (v : Milli) : (s.setRh v).resets = s.resets := rfl
@[simp] theorem State.setRh_inputs (s : State) (v : Milli) : (s.setRh v).inputs = s.inputs := rfl
@[simp] theorem State.setRh_outputs (s : State) (v : Milli) : (s.setRh v).outputs = s.outputs := rfl

@[simp] theorem State.setTv_tc (s : State) (v : Bool) : (s.setTv v).tc = s.tc := rfl
@[simp] theorem State.setTv_tf (s : State) (v : Bool) : (s.setTv v).tf = s.tf := rfl
@[simp] theorem State.setTv_rh (s : State) (v : Bool) : (s.setTv v).rh = s.rh := rfl
@[simp] theorem State.setTv_tv (s : State) (v : Bool) : (s.setTv v).tv = v := rfl
@[simp] theorem State.setTv_hv (s : State) (v : Bool) : (s.setTv v).hv = s.hv := rfl
@[simp] theorem State.setTv_trdy (s : State) (v : Bool) : (s.setTv v).trdy = s.trdy := rfl
@[simp] theorem State.setTv_hrdy (s : State) (v : Bool) : (s.setTv v).hrdy = s.hrdy := rfl
@[simp] theorem State.setTv_resets (s : State) (v : Bool) : (s.setTv v).resets = s.resets := rfl
@[simp] theorem State.setTv_inputs (s : State) (v : Bool) : (s.setTv v).inputs = s.inputs := rfl
@[simp] theorem State.setTv_outputs (s : State) (v : Bool) : (s.setTv v).outputs = s.outputs := rfl

@[simp] theorem State.setHv_tc (s : State) (v : Bool) : (s.setHv v).tc = s.tc := rfl
@[simp] theorem State.setHv_tf (s : State) (v : Bool) : (s.setHv v).tf = s.tf := rfl
@[simp] theorem State.setHv_rh (s : State) (v : Bool) : (s.setHv v).rh = s.rh := rfl
@[simp] theorem State.setHv_tv (s : State) (v : Bool) : (s.setHv v).tv = s.tv := rfl
@[simp] theorem State.setHv_hv (s : State) (v : Bool) : (s.setHv v).hv = v := rfl
@[simp] theorem State.setHv_trdy (s : State) (v : Bool) : (s.setHv v).trdy = s.trdy := rfl
@[simp] theorem State.setHv_hrdy (s : State) (v : Bool) : (s.setHv v).hrdy = s.hrdy := rfl
@[simp] theorem State.setHv_resets (s : State) (v : Bool) : (s.setHv v).resets = s.resets := rfl
@[simp] theorem State.setHv_inputs (s : State) (v : Bool) : (s.setHv v).inputs = s.inputs := rfl
@[simp] theorem State.setHv_outputs (s : State) (v : Bool) : (s.setHv v).outputs = s.outputs := rfl

@[simp] theorem State.setTrdy_tc (s : State) (v : Bool) : (s.setTrdy v).tc = s.tc := rfl
@[simp] theorem State.setTrdy_tf (s : State) (v : Bool) : (s.setTrdy v).tf = s.tf := rfl
@[simp] theorem State.setTrdy_rh (s : State) (v : Bool) : (s.setTrdy v).rh = s.rh := rfl
@[simp] theorem State.setTrdy_tv (s : State) (v : Bool) : (s.setTrdy v).tv = s.tv := rfl
@[simp] theorem State.setTrdy_hv (s : State) (v : Bool) : (s.setTrdy v).hv = s.hv := rfl
@[simp] theorem State.setTrdy_trdy (s : State) (v : Bool) : (s.setTrdy v).trdy = v := rfl
@[simp] theorem State.setTrdy_hrdy (s : State) (v : Bool) : (s.setTrdy v).hrdy = s.hrdy := rfl
@[simp] theorem State.setTrdy_resets (s : State) (v : Bool) : (s.setTrdy v).resets = s.resets := rfl
@[simp] theorem State.setTrdy_inputs (s : State) (v : Bool) : (s.setTrdy v).inputs = s.inputs := rfl
@[simp] theorem State.setTrdy_outputs (s : State) (v : Bool) : (s.setTrdy v).outputs = s.outputs := rfl

@[simp] theorem State.setHrdy_tc (s : State) (v : Bool) : (s.setHrdy v).tc = s.tc := rfl
@[simp] theorem State.setHrdy_tf (s : State) (v : Bool) : (s.setHrdy v).tf = s.tf := rfl
@[simp] theorem State.setHrdy_rh (s : State) (v : Bool) : (s.setHrdy v).rh = s.rh := rfl
@[simp] theorem State.setHrdy_tv (s : State) (v : Bool) : (s.setHrdy v).tv = s.tv := rfl
@[simp] theorem State.setHrdy_hv (s : State) (v : Bool) : (s.setHrdy v).hv = s.hv := rfl
@[simp] theorem State.setHrdy_trdy (s : State) (v : Bool) : (s.setHrdy v).trdy = s.trdy := rfl
@[simp] theorem State.setHrdy_hrdy (s : State) (v : Bool) : (s.setHrdy v).hrdy = v := rfl
@[simp] theorem State.setHrdy_resets (s : State) (v : Bool) : (s.setHrdy v).resets = s.resets := rfl
@[simp] theorem State.setHrdy_inputs (s : State) (v : Bool) : (s.setHrdy v).inputs = s.inputs := rfl
@[simp] theorem State.setHrdy_outputs (s : State) (v : Bool) : (s.setHrdy v).outputs = s.outputs := rfl

@[simp] theorem State.setInputs_tc (s : State) (v : List HostEvent) : (s.setInputs v).tc = s.tc := rfl
@[simp] theorem State.setInputs_tf (s : State) (v : List HostEvent) : (s.setInputs v).tf = s.tf := rfl
@[simp] theorem State.setInputs_rh (s : State) (v : List HostEvent) : (s.setInputs v).rh = s.rh := rfl
@[simp] theorem State.setInputs_tv (s : State) (v : List HostEvent) : (s.setInputs v).tv = s.tv := rfl
@[simp] theorem State.setInputs_hv (s : State) (v : List HostEvent) : (s.setInputs v).hv = s.hv := rfl
@[simp] theorem State.setInputs_trdy (s : State) (v : List HostEvent) : (s.setInputs v).trdy = s.trdy := rfl
@[simp] theorem State.setInputs_hrdy (s : State) (v : List HostEvent) : (s.setInputs v).hrdy = s.hrdy := rfl
@[simp] theorem State.setInputs_resets (s : State) (v : List HostEvent) : (s.setInputs v).resets = s.resets := rfl
@[simp] theorem State.setInputs_inputs (s : State) (v : List HostEvent) : (s.setInputs v).inputs = v := rfl
@[simp] theorem State.setInputs_outputs (s : State) (v : List HostEvent) : (s.setInputs v).outputs = s.outputs := rfl

@[simp] theorem State.emit_tc (s : State) (r : RspWord) : (s.emit r).tc = s.tc := rfl
@[simp] theorem State.emit_tf (s : State) (r : RspWord) : (s.emit r).tf = s.tf := rfl
@[simp] theorem State.emit_rh (s : State) (r : RspWord) : (s.emit r).rh = s.rh := rfl
@[simp] theorem State.emit_tv (s : State) (r : RspWord) : (s.emit r).tv = s.tv := rfl
@[simp] theorem State.emit_hv (s : State) (r : RspWord) : (s.emit r).hv = s.hv := rfl
@[simp] theorem State.emit_trdy (s : State) (r : RspWord) : (s.emit r).trdy = s.trdy := rfl
@[simp] theorem State.emit_hrdy (s : State) (r : RspWord) : (s.emit r).hrdy = s.hrdy := rfl
@[simp] theorem State.emit_resets (s : State) (r : RspWord) : (s.emit r).resets = s.resets := rfl
@[simp] theorem State.emit_inputs (s : State) (r : RspWord) : (s.emit r).inputs = s.inputs := rfl
@[simp] theorem State.emit_outputs (s : State) (r : RspWord) : (s.emit r).outputs = s.outputs ++ [r] := rfl

@[simp] theorem hostReset_tc (s : State) : (hostReset s).tc = Config.resetTc s.resets := rfl
@[simp] theorem hostReset_tf (s : State) : (hostReset s).tf = Config.resetTf s.resets := rfl
@[simp] theorem hostReset_rh (s : State) : (hostReset s).rh = Config.resetRh s.resets := rfl
@[simp] theorem hostReset_tv (s : State) : (hostReset s).tv = false := rfl
@[simp] theorem hostReset_hv (s : State) : (hostReset s).hv = false := rfl
@[simp] theorem hostReset_trdy (s : State) : (hostReset s).trdy = false := rfl
@[simp] theorem hostReset_hrdy (s : State) : (hostReset s).hrdy = false := rfl
@[simp] theorem hostReset_resets (s : State) : (hostReset s).resets = s.resets + 1 := rfl
@[simp] theorem hostReset_inputs (s : State) : (hostReset s).inputs = s.inputs := rfl
@[simp] theorem hostReset_outputs (s : State) : (hostReset s).outputs = s.outputs := rfl

/-- The flags image depends on the four stored flags alone (R17). -/
theorem State.flags_congr {s t : State} (h1 : t.tv = s.tv) (h2 : t.hv = s.hv) (h3 : t.trdy = s.trdy)
    (h4 : t.hrdy = s.hrdy) : t.flags = s.flags := by
  simp only [State.flags, State.ready, h1, h2, h3, h4]

@[simp] theorem State.emit_flags (s : State) (r : RspWord) : (s.emit r).flags = s.flags := rfl

@[simp] theorem State.setInputs_flags (s : State) (es : List HostEvent) : (s.setInputs es).flags = s.flags := rfl

end Sys2Proof.Machine
end

