-- ==== Sys2Proof/Laws/Ops.lean ====
section
/-! SUPPORT. What the shared operations do: giving a response, the response word's fields, the illegal-command event. -/

namespace Sys2Proof.Machine

/-- `respond` gives the assembled word as one more response. -/
theorem State.respond_eq (s : State) (ill ws wh wt : Bool) (d : Milli) :
    s.respond ill ws wh wt d = s.emit (responseWord ill ws wh wt d) := rfl

/-- A command without an event ends in the state with its response given. -/
theorem answer_eq (d : Milli) (s : State) : answer d s = .next (s.emit (responseWord false false false false d)) := rfl

/-- The illegal-command event ends in the state with its response given (R93). -/
theorem illegalCommand_eq (s : State) : illegalCommand s = .next (s.emit (responseWord true false false false 0#20)) := rfl

/-- The response of an illegal word is 0x800000 (R93). -/
theorem responseWord_illegal : responseWord true false false false 0#20 = 0x800000#24 := by decide

/-- Without an event the four top bits are zero (R42). -/
theorem responseWord_quiet (d : Milli) : responseWord false false false false d = 0#4 ++ d := by
  unfold responseWord; congr 1

/-- The bits of a response word (R42). -/
theorem getLsbD_responseWord (ill ws wh wt : Bool) (d : Milli) (i : Nat) :
    (responseWord ill ws wh wt d).getLsbD i =
      if i < 20 then d.getLsbD i else if i = 20 then wt else if i = 21 then wh else if i = 22 then ws
        else if i = 23 then ill else false := by
  by_cases h : i < 24
  · rw [BitVec.getLsbD_eq_getElem h, responseWord]
    grind
  · rw [BitVec.getLsbD_of_ge _ _ (by omega)]
    grind

@[simp] theorem rspDout_responseWord (ill ws wh wt : Bool) (d : Milli) :
    rspDout (responseWord ill ws wh wt d) = d := by
  apply BitVec.eq_of_getLsbD_eq
  intro i hi
  simp only [rspDout, BitVec.getLsbD_extractLsb', getLsbD_responseWord]
  simp [hi]

@[simp] theorem rspWt_responseWord (ill ws wh wt : Bool) (d : Milli) :
    rspWt (responseWord ill ws wh wt d) = wt := by
  rw [rspWt, getLsbD_responseWord]; rfl

@[simp] theorem rspWh_responseWord (ill ws wh wt : Bool) (d : Milli) :
    rspWh (responseWord ill ws wh wt d) = wh := by
  rw [rspWh, getLsbD_responseWord]; rfl

@[simp] theorem rspWs_responseWord (ill ws wh wt : Bool) (d : Milli) :
    rspWs (responseWord ill ws wh wt d) = ws := by
  rw [rspWs, getLsbD_responseWord]; rfl

@[simp] theorem rspIll_responseWord (ill ws wh wt : Bool) (d : Milli) :
    rspIll (responseWord ill ws wh wt d) = ill := by
  rw [rspIll, getLsbD_responseWord]; rfl

end Sys2Proof.Machine
end

