-- ==== Sys2Proof/Laws/Frame.lean ====
section
/-! SUPPORT. What FRAME does with each channel, field by field, and FRAME as one response over both (R76 to R78). -/

namespace Sys2Proof.Machine

section Temperature

variable (s : State) (ch : Channel)

@[simp] theorem State.takeTemperature_tc :
    (s.takeTemperature ch).tc = if ch.ok then cvtTc ch.code else s.tc := by
  cases h : ch.ok <;> simp [State.takeTemperature, h]

@[simp] theorem State.takeTemperature_tf :
    (s.takeTemperature ch).tf = if ch.ok then cvtTf ch.code else s.tf := by
  cases h : ch.ok <;> simp [State.takeTemperature, h]

@[simp] theorem State.takeTemperature_rh : (s.takeTemperature ch).rh = s.rh := by
  cases h : ch.ok <;> simp [State.takeTemperature, h]

@[simp] theorem State.takeTemperature_tv : (s.takeTemperature ch).tv = ch.ok := by
  cases h : ch.ok <;> simp [State.takeTemperature, h]

@[simp] theorem State.takeTemperature_hv : (s.takeTemperature ch).hv = s.hv := by
  cases h : ch.ok <;> simp [State.takeTemperature, h]

@[simp] theorem State.takeTemperature_trdy : (s.takeTemperature ch).trdy = (ch.ok || s.trdy) := by
  cases h : ch.ok <;> simp [State.takeTemperature, h]

@[simp] theorem State.takeTemperature_hrdy : (s.takeTemperature ch).hrdy = s.hrdy := by
  cases h : ch.ok <;> simp [State.takeTemperature, h]

@[simp] theorem State.takeTemperature_resets : (s.takeTemperature ch).resets = s.resets := by
  cases h : ch.ok <;> simp [State.takeTemperature, h]

@[simp] theorem State.takeTemperature_inputs : (s.takeTemperature ch).inputs = s.inputs := by
  cases h : ch.ok <;> simp [State.takeTemperature, h]

@[simp] theorem State.takeTemperature_outputs : (s.takeTemperature ch).outputs = s.outputs := by
  cases h : ch.ok <;> simp [State.takeTemperature, h]

end Temperature

section Humidity

variable (s : State) (ch : Channel)

@[simp] theorem State.takeHumidity_tc : (s.takeHumidity ch).tc = s.tc := by
  cases h : ch.ok <;> simp [State.takeHumidity, h]

@[simp] theorem State.takeHumidity_tf : (s.takeHumidity ch).tf = s.tf := by
  cases h : ch.ok <;> simp [State.takeHumidity, h]

@[simp] theorem State.takeHumidity_rh : (s.takeHumidity ch).rh = if ch.ok then cvtRh ch.code else s.rh := by
  cases h : ch.ok <;> simp [State.takeHumidity, h]

@[simp] theorem State.takeHumidity_tv : (s.takeHumidity ch).tv = s.tv := by
  cases h : ch.ok <;> simp [State.takeHumidity, h]

@[simp] theorem State.takeHumidity_hv : (s.takeHumidity ch).hv = ch.ok := by
  cases h : ch.ok <;> simp [State.takeHumidity, h]

@[simp] theorem State.takeHumidity_trdy : (s.takeHumidity ch).trdy = s.trdy := by
  cases h : ch.ok <;> simp [State.takeHumidity, h]

@[simp] theorem State.takeHumidity_hrdy : (s.takeHumidity ch).hrdy = (ch.ok || s.hrdy) := by
  cases h : ch.ok <;> simp [State.takeHumidity, h]

@[simp] theorem State.takeHumidity_resets : (s.takeHumidity ch).resets = s.resets := by
  cases h : ch.ok <;> simp [State.takeHumidity, h]

@[simp] theorem State.takeHumidity_inputs : (s.takeHumidity ch).inputs = s.inputs := by
  cases h : ch.ok <;> simp [State.takeHumidity, h]

@[simp] theorem State.takeHumidity_outputs : (s.takeHumidity ch).outputs = s.outputs := by
  cases h : ch.ok <;> simp [State.takeHumidity, h]

end Humidity

/-- FRAME is both channels taken, then one response. -/
theorem runFrame_eq (t h : Channel) (s : State) :
    runFrame t h s = .next (((s.takeTemperature t).takeHumidity h).emit
      (responseWord false false (!h.ok) (!t.ok) (zext20 ((s.takeTemperature t).takeHumidity h).flags))) := rfl

end Sys2Proof.Machine
end

