-- ==== Sys2Proof/Laws/Command.lean ====
section
/-! SUPPORT. What running a command, a word and an event can do, said once. -/

namespace Sys2Proof.Machine

/-- Every command ends in a next state that has one more response and is otherwise `exec`'s own: what the host will do,
the responses before and the count of resets are kept. -/
theorem exec_emits (i : Instr) (s : State) : ∃ (u : State) (r : RspWord), exec i s = .next (u.emit r) ∧ u.outputs = s.outputs ∧
    u.inputs = s.inputs ∧ u.resets = s.resets := by
  cases i with
  | crc8 p0 p1 => exact ⟨_, _, rfl, rfl, rfl, rfl⟩
  | verify p0 p1 c => exact ⟨_, _, rfl, rfl, rfl, rfl⟩
  | cvtc code => exact ⟨_, _, rfl, rfl, rfl, rfl⟩
  | cvtf code => exact ⟨_, _, rfl, rfl, rfl, rfl⟩
  | cvrh code => exact ⟨_, _, rfl, rfl, rfl, rfl⟩
  | frame b0 b1 b2 b3 b4 b5 => exact ⟨_, _, rfl, by simp, by simp, by simp⟩
  | vstat p0 p1 c =>
    simp only [exec, execVstat]
    split <;> exact ⟨_, _, rfl, rfl, rfl, rfl⟩
  | rdtc => exact ⟨_, _, rfl, rfl, rfl, rfl⟩
  | rdtf => exact ⟨_, _, rfl, rfl, rfl, rfl⟩
  | rdrh => exact ⟨_, _, rfl, rfl, rfl, rfl⟩
  | rdflg => exact ⟨_, _, rfl, rfl, rfl, rfl⟩

/-- A word that decodes runs its command (R47). -/
theorem runCommand_ok {w : CmdWord} {i : Instr} (h : decode w = .ok i) (s : State) : runCommand w s = exec i s := by
  simp only [runCommand, h]

/-- A word that does not decode is the illegal-command event (R93). -/
theorem runCommand_error {w : CmdWord} {e : DecodeError} (h : decode w = .error e) (s : State) :
    runCommand w s = illegalCommand s := by
  simp only [runCommand, h]

/-- Every word ends in a next state with one more response; what the host will do, the responses before and the count of
resets are kept (R34, R47). -/
theorem runCommand_emits (w : CmdWord) (s : State) :
    ∃ (u : State) (r : RspWord), runCommand w s = .next (u.emit r) ∧ u.outputs = s.outputs ∧ u.inputs = s.inputs ∧
      u.resets = s.resets := by
  cases hd : decode w with
  | ok i => rw [runCommand_ok hd]; exact exec_emits i s
  | error e => rw [runCommand_error hd]; exact ⟨s, _, rfl, rfl, rfl, rfl⟩

theorem nextEvent_nil {s : State} (h : s.inputs = []) : nextEvent s = none := by simp only [nextEvent, h]

theorem nextEvent_cons {s : State} {e : HostEvent} {es : List HostEvent} (h : s.inputs = e :: es) :
    nextEvent s = some (e, s.setInputs es) := by simp only [nextEvent, h]

end Sys2Proof.Machine
end

