-- ==== Sys2Proof/Laws/Conversion.lean ====
section
/-! SUPPORT. `to_s20` does not wrap in the range of the conversions, and the bounds of the scaled code (R70). -/

namespace Sys2Proof.Machine

/-- `to_s20` keeps an integer of its range (R8). -/
theorem toInt_toS20 {n : Int} (h1 : -524288 ≤ n) (h2 : n ≤ 524287) : (toS20 n).toInt = n := by
  rw [toS20, BitVec.toInt_ofInt]
  exact Int.bmod_eq_of_le (by norm_num; omega) (by norm_num; omega)

/-- The scaled code is the quotient of R63 to R65, by its defining inequalities. -/
theorem scaled_spec (factor : Nat) (code : Code) :
    131070 * scaled factor code ≤ factor * code.toNat + 65535 ∧
      factor * code.toNat + 65535 < 131070 * scaled factor code + 131070 := by
  unfold scaled
  omega

end Sys2Proof.Machine
end

