-- ==== Sys2Proof/Laws/Decode.lean ====
section
/-! SUPPORT. When the decoder accepts a format, and the fields of a word laid out by R40. -/

namespace Sys2Proof

/-- A format accepts exactly when its must-be-zero bits are zero (R46). -/
theorem ifZero_eq_ok {n : Nat} {mbz : BitVec n} {w : CmdWord} {i j : Instr} :
    ifZero mbz w i = .ok j ↔ mbz = 0#n ∧ i = j := by
  unfold ifZero; split <;> simp_all

/-- The bits of a word written as opcode and data (R40). -/
theorem getLsbD_word (op : BitVec 4) (data : BitVec 48) (i : Nat) :
    (op ++ data : CmdWord).getLsbD i = if i < 48 then data.getLsbD i else op.getLsbD (i - 48) :=
  BitVec.getLsbD_append

/-- The opcode field of a word written as opcode and data (R40). -/
theorem opOf_append (op : BitVec 4) (data : BitVec 48) : opOf (op ++ data) = op := by
  apply BitVec.eq_of_getLsbD_eq
  intro i hi
  rw [opOf, BitVec.getLsbD_extractLsb', getLsbD_word]
  simp [hi]

/-- The data field of a word written as opcode and data (R40). -/
theorem dataOf_append (op : BitVec 4) (data : BitVec 48) : dataOf (op ++ data) = data := by
  apply BitVec.eq_of_getLsbD_eq
  intro i hi
  rw [dataOf, BitVec.getLsbD_extractLsb', getLsbD_word]
  simp [hi]

/-- A word is its opcode and its data field (R40). -/
theorem opOf_append_dataOf (w : CmdWord) : opOf w ++ dataOf w = w := by
  apply BitVec.eq_of_getLsbD_eq
  intro i hi
  rw [getLsbD_word]
  simp only [opOf, dataOf, BitVec.getLsbD_extractLsb']
  grind

end Sys2Proof
end

