-- ==== Sys2Proof/Laws/Notation.lean ====
section
/-! SUPPORT. Hexadecimal text: how long it is, and that reading gives back the value written (R50, R52, R53). -/

namespace Sys2Proof.Machine

theorem hexVal_hexChar {d : Nat} (h : d < 16) : hexVal (hexChar d) = some d := by
  interval_cases d <;> rfl

/-- A digit is no separator of R50. -/
theorem hexChar_plain (d : Nat) : hexChar d ≠ ';' ∧ hexChar d ≠ ',' ∧ hexChar d ≠ ' ' ∧ hexChar d ≠ '\t' := by
  by_cases h : d < 16
  · interval_cases d <;> decide
  · have : hexChar d = '0' := by
      unfold hexChar
      rw [List.getD_eq_default]
      simpa using h
    rw [this]
    decide

@[simp] theorem length_hexText (n v : Nat) : (hexText n v).length = n := by
  induction n generalizing v with
  | zero => rfl
  | succ n ih => simp [hexText, ih]

/-- The first digit of a text. -/
theorem hexText_succ (n v : Nat) : hexText (n + 1) v = hexChar (v / 16 ^ n % 16) :: hexText n v := by
  induction n generalizing v with
  | zero => simp [hexText]
  | succ n ih => rw [hexText, ih, Nat.div_div_eq_div_mul, ← pow_succ']; rfl

theorem readHexFrom_append (a b : List Char) (acc : Nat) :
    readHexFrom acc (a ++ b) = (readHexFrom acc a).bind fun x => readHexFrom x b := by
  induction a generalizing acc with
  | nil => rfl
  | cons c cs ih => simp only [List.cons_append, readHexFrom]; cases hexVal c <;> simp [ih]

theorem readHexFrom_hexText (n v acc : Nat) : readHexFrom acc (hexText n v) = some (acc * 16 ^ n + v % 16 ^ n) := by
  induction n generalizing v acc with
  | zero => simp [hexText, readHexFrom, Nat.mod_one]
  | succ n ih =>
    rw [hexText, readHexFrom_append, ih]
    simp only [Option.bind_some, readHexFrom, hexVal_hexChar (Nat.mod_lt v (by norm_num : 0 < 16))]
    congr 1
    rw [pow_succ, mul_comm (16 ^ n) 16, Nat.mod_mul]
    ring

/-- Reading a written number gives its last `n` digits. -/
theorem readNumber_numberText (n v : Nat) : readNumber (numberText (n + 1) v) = some (v % 16 ^ (n + 1)) := by
  have h := readHexFrom_hexText (n + 1) v 0
  rw [hexText_succ] at h
  simp only [numberText, hexText_succ, readNumber, h]
  simp

end Sys2Proof.Machine
end

