-- ==== Sys2Proof/Laws/Table.lean ====
section
/-! SUPPORT. The rows of the opcode table against the fields of R40 and R41: a row selects a word exactly when the opcode
is the row's and the must-be-zero bits of its format are zero. -/

namespace Sys2Proof

/-- A mask that keeps the bits from `k` up, compared with an opcode over zeros: the word has that opcode, and zeros from
bit `k` up to the opcode. -/
theorem masked_eq_opcode (k : Nat) (w mask : CmdWord) (op : BitVec 4)
    (hm : ∀ i < 52, mask.getLsbD i = decide (k ≤ i)) (hk : k ≤ 48) :
    (w &&& mask == op ++ 0#48) = (opOf w == op && w.extractLsb' k (48 - k) == 0) := by
  rw [Bool.eq_iff_iff, Bool.and_eq_true, beq_iff_eq, beq_iff_eq, beq_iff_eq]
  constructor
  · intro h
    have hb : ∀ i < 52, (w.getLsbD i && decide (k ≤ i)) = if i < 48 then false else op.getLsbD (i - 48) := by
      intro i hi
      rw [← hm i hi, ← BitVec.getLsbD_and, h, getLsbD_word]; simp
    constructor <;> apply BitVec.eq_of_getLsbD_eq <;> intro i hi
    · have := hb (48 + i) (by omega)
      simp only [opOf, BitVec.getLsbD_extractLsb', hi]
      grind
    · have := hb (k + i) (by omega)
      simp only [BitVec.getLsbD_extractLsb']
      grind
  · rintro ⟨h1, h2⟩
    apply BitVec.eq_of_getLsbD_eq
    intro i hi
    rw [BitVec.getLsbD_and, hm i hi, getLsbD_word]
    by_cases h48 : i < 48
    · have := congrArg (·.getLsbD (i - k)) h2
      simp only [BitVec.getLsbD_extractLsb'] at this
      grind
    · have := congrArg (·.getLsbD (i - 48)) h1
      simp only [opOf, BitVec.getLsbD_extractLsb'] at this
      grind

/-- A row of format P16 (R41). -/
theorem selects_p16 (name : String) (op : BitVec 4) (w : CmdWord) :
    OpcodeRow.selects ⟨name, op ++ 0#48, 0xFFFFFFFFF0000⟩ w = (opOf w == op && mbzP16 w == 0#32) :=
  masked_eq_opcode 16 w 0xFFFFFFFFF0000 op (by decide) (by decide)

/-- A row of format P24 (R41). -/
theorem selects_p24 (name : String) (op : BitVec 4) (w : CmdWord) :
    OpcodeRow.selects ⟨name, op ++ 0#48, 0xFFFFFFF000000⟩ w = (opOf w == op && mbzP24 w == 0#24) :=
  masked_eq_opcode 24 w 0xFFFFFFF000000 op (by decide) (by decide)

/-- A row of format N (R41). -/
theorem selects_n (name : String) (op : BitVec 4) (w : CmdWord) :
    OpcodeRow.selects ⟨name, op ++ 0#48, 0xFFFFFFFFFFFFF⟩ w = (opOf w == op && dataOf w == 0#48) :=
  masked_eq_opcode 0 w 0xFFFFFFFFFFFFF op (by decide) (by decide)

/-- A row of format F48 (R41). -/
theorem selects_f48 (name : String) (op : BitVec 4) (w : CmdWord) :
    OpcodeRow.selects ⟨name, op ++ 0#48, 0xF000000000000⟩ w = (opOf w == op) := by
  have h := masked_eq_opcode 48 w 0xF000000000000 op (by decide) (by decide)
  rw [OpcodeRow.selects, h, Bool.and_eq_left_iff_imp]
  intro _
  exact beq_iff_eq.mpr (Subsingleton.elim (α := BitVec 0) _ _)

/-- The rows of the table written as opcode over zeros. -/
theorem opcodeRows_eq : opcodeRows =
    [ ⟨"CRC8", 0x1#4 ++ 0#48, 0xFFFFFFFFF0000⟩, ⟨"VERIFY", 0x2#4 ++ 0#48, 0xFFFFFFF000000⟩,
      ⟨"CVTC", 0x3#4 ++ 0#48, 0xFFFFFFFFF0000⟩, ⟨"CVTF", 0x4#4 ++ 0#48, 0xFFFFFFFFF0000⟩,
      ⟨"CVRH", 0x5#4 ++ 0#48, 0xFFFFFFFFF0000⟩, ⟨"FRAME", 0x6#4 ++ 0#48, 0xF000000000000⟩,
      ⟨"VSTAT", 0x7#4 ++ 0#48, 0xFFFFFFF000000⟩, ⟨"RDTC", 0x8#4 ++ 0#48, 0xFFFFFFFFFFFFF⟩,
      ⟨"RDTF", 0x9#4 ++ 0#48, 0xFFFFFFFFFFFFF⟩, ⟨"RDRH", 0xA#4 ++ 0#48, 0xFFFFFFFFFFFFF⟩,
      ⟨"RDFLG", 0xB#4 ++ 0#48, 0xFFFFFFFFFFFFF⟩ ] := rfl

/-- The opcode of a P16 word with two bytes. -/
theorem opOf_bytes2 (op : BitVec 4) (p0 p1 : Byte) : opOf (op ++ 0#32 ++ p0 ++ p1 : CmdWord) = op := by
  apply BitVec.eq_of_getLsbD_eq
  intro j hj
  rw [opOf, BitVec.getLsbD_extractLsb', BitVec.getLsbD_eq_getElem (by omega)]
  grind

/-- The opcode of a P16 word with a code. -/
theorem opOf_code (op : BitVec 4) (code : Code) : opOf (op ++ 0#32 ++ code : CmdWord) = op := by
  apply BitVec.eq_of_getLsbD_eq
  intro j hj
  rw [opOf, BitVec.getLsbD_extractLsb', BitVec.getLsbD_eq_getElem (by omega)]
  grind

/-- The opcode of a P24 word. -/
theorem opOf_bytes3 (op : BitVec 4) (p0 p1 c : Byte) : opOf (op ++ 0#24 ++ p0 ++ p1 ++ c : CmdWord) = op := by
  apply BitVec.eq_of_getLsbD_eq
  intro j hj
  rw [opOf, BitVec.getLsbD_extractLsb', BitVec.getLsbD_eq_getElem (by omega)]
  grind

/-- The opcode of an F48 word. -/
theorem opOf_bytes6 (op : BitVec 4) (b0 b1 b2 b3 b4 b5 : Byte) : opOf (op ++ b0 ++ b1 ++ b2 ++ b3 ++ b4 ++ b5 : CmdWord) = op := by
  apply BitVec.eq_of_getLsbD_eq
  intro j hj
  rw [opOf, BitVec.getLsbD_extractLsb', BitVec.getLsbD_eq_getElem (by omega)]
  grind

/-- The must-be-zero bits of a P16 word with two bytes are zero. -/
theorem mbzP16_bytes2 (op : BitVec 4) (p0 p1 : Byte) : mbzP16 (op ++ 0#32 ++ p0 ++ p1 : CmdWord) = 0#32 := by
  apply BitVec.eq_of_getLsbD_eq
  intro j hj
  rw [mbzP16, BitVec.getLsbD_extractLsb', BitVec.getLsbD_eq_getElem (by omega)]
  grind

/-- The must-be-zero bits of a P16 word with a code are zero. -/
theorem mbzP16_code (op : BitVec 4) (code : Code) : mbzP16 (op ++ 0#32 ++ code : CmdWord) = 0#32 := by
  apply BitVec.eq_of_getLsbD_eq
  intro j hj
  rw [mbzP16, BitVec.getLsbD_extractLsb', BitVec.getLsbD_eq_getElem (by omega)]
  grind

/-- The must-be-zero bits of a P24 word are zero. -/
theorem mbzP24_bytes3 (op : BitVec 4) (p0 p1 c : Byte) : mbzP24 (op ++ 0#24 ++ p0 ++ p1 ++ c : CmdWord) = 0#24 := by
  apply BitVec.eq_of_getLsbD_eq
  intro j hj
  rw [mbzP24, BitVec.getLsbD_extractLsb', BitVec.getLsbD_eq_getElem (by omega)]
  grind

/-- A filter, with its verdicts beside the entries. -/
theorem filter_eq_filterMap {α : Type} (l : List α) (p : α → Bool) :
    l.filter p = (l.map fun r => (r, p r)).filterMap (fun q => if q.2 then some q.1 else none) := by
  induction l with
  | nil => rfl
  | cons a l ih => cases h : p a <;> simp [h, ih]

/-- Which rows select a word, by its opcode and its must-be-zero bits (R41, R44). -/
theorem rowsOf_eq (w : CmdWord) : rowsOf w =
    ([ (⟨"CRC8", 0x1#4 ++ 0#48, 0xFFFFFFFFF0000⟩, opOf w == 0x1#4 && mbzP16 w == 0#32),
       (⟨"VERIFY", 0x2#4 ++ 0#48, 0xFFFFFFF000000⟩, opOf w == 0x2#4 && mbzP24 w == 0#24),
       (⟨"CVTC", 0x3#4 ++ 0#48, 0xFFFFFFFFF0000⟩, opOf w == 0x3#4 && mbzP16 w == 0#32),
       (⟨"CVTF", 0x4#4 ++ 0#48, 0xFFFFFFFFF0000⟩, opOf w == 0x4#4 && mbzP16 w == 0#32),
       (⟨"CVRH", 0x5#4 ++ 0#48, 0xFFFFFFFFF0000⟩, opOf w == 0x5#4 && mbzP16 w == 0#32),
       (⟨"FRAME", 0x6#4 ++ 0#48, 0xF000000000000⟩, opOf w == 0x6#4),
       (⟨"VSTAT", 0x7#4 ++ 0#48, 0xFFFFFFF000000⟩, opOf w == 0x7#4 && mbzP24 w == 0#24),
       (⟨"RDTC", 0x8#4 ++ 0#48, 0xFFFFFFFFFFFFF⟩, opOf w == 0x8#4 && dataOf w == 0#48),
       (⟨"RDTF", 0x9#4 ++ 0#48, 0xFFFFFFFFFFFFF⟩, opOf w == 0x9#4 && dataOf w == 0#48),
       (⟨"RDRH", 0xA#4 ++ 0#48, 0xFFFFFFFFFFFFF⟩, opOf w == 0xA#4 && dataOf w == 0#48),
       (⟨"RDFLG", 0xB#4 ++ 0#48, 0xFFFFFFFFFFFFF⟩, opOf w == 0xB#4 && dataOf w == 0#48) ] :
      List (OpcodeRow × Bool)).filterMap (fun p => if p.2 then some p.1 else none) := by
  rw [rowsOf, opcodeRows_eq, filter_eq_filterMap]
  simp only [List.map_cons, List.map_nil, selects_p16, selects_p24, selects_n, selects_f48]

/-- What the decoder can answer, said once: a command of the opcode, its must-be-zero bits being zero, or an error, and
then no row of the table selects the word (R45 to R47). -/
theorem decode_cases (w : CmdWord) :
    (opOf w = 0x1#4 ∧ mbzP16 w = 0#32 ∧ decode w = .ok (.crc8 (byteOf 1 w) (byteOf 0 w))) ∨
    (opOf w = 0x2#4 ∧ mbzP24 w = 0#24 ∧ decode w = .ok (.verify (byteOf 2 w) (byteOf 1 w) (byteOf 0 w))) ∨
    (opOf w = 0x3#4 ∧ mbzP16 w = 0#32 ∧ decode w = .ok (.cvtc (codeOf w))) ∨
    (opOf w = 0x4#4 ∧ mbzP16 w = 0#32 ∧ decode w = .ok (.cvtf (codeOf w))) ∨
    (opOf w = 0x5#4 ∧ mbzP16 w = 0#32 ∧ decode w = .ok (.cvrh (codeOf w))) ∨
    (opOf w = 0x6#4 ∧
      decode w = .ok (.frame (byteOf 5 w) (byteOf 4 w) (byteOf 3 w) (byteOf 2 w) (byteOf 1 w) (byteOf 0 w))) ∨
    (opOf w = 0x7#4 ∧ mbzP24 w = 0#24 ∧ decode w = .ok (.vstat (byteOf 2 w) (byteOf 1 w) (byteOf 0 w))) ∨
    (opOf w = 0x8#4 ∧ dataOf w = 0#48 ∧ decode w = .ok .rdtc) ∨
    (opOf w = 0x9#4 ∧ dataOf w = 0#48 ∧ decode w = .ok .rdtf) ∨
    (opOf w = 0xA#4 ∧ dataOf w = 0#48 ∧ decode w = .ok .rdrh) ∨
    (opOf w = 0xB#4 ∧ dataOf w = 0#48 ∧ decode w = .ok .rdflg) ∨
    (rowsOf w = [] ∧ ∃ e, decode w = .error e) := by
  rw [rowsOf_eq]
  unfold decode ifZero
  obtain ⟨n, hn⟩ : ∃ n : Fin 16, opOf w = BitVec.ofFin n := ⟨(opOf w).toFin, rfl⟩
  by_cases h16 : mbzP16 w = 0#32 <;> by_cases h24 : mbzP24 w = 0#24 <;> by_cases hd : dataOf w = 0#48 <;>
    fin_cases n <;> simp [hn, h16, h24, hd]

end Sys2Proof
end

