-- ==== Sys2Proof/Laws/PerInstr.lean ====
section
/-! SUPPORT. A statement per command about its syntax: the rows of the opcode table that select the encoder's word are
one, and it is named as the command is (R44, R47). -/

/-- The rows that select the encoder's word are one, named as the command is. -/
def Sys2Proof.Laws.EncodeLegal.Statement (i : Sys2Proof.Instr) : Prop :=
  (Sys2Proof.rowsOf (Sys2Proof.encode i)).map (·.mnemonic) = [Sys2Proof.mnemonicOf i]

namespace Sys2Proof.Laws

theorem EncodeLegal.crc8 (p0 p1 : Byte) : EncodeLegal.Statement (.crc8 p0 p1) := by
  have ho : opOf (encode (.crc8 p0 p1)) = 0x1#4 := opOf_bytes2 0x1#4 p0 p1
  have hz : mbzP16 (encode (.crc8 p0 p1)) = 0 := mbzP16_bytes2 0x1#4 p0 p1
  simp [EncodeLegal.Statement, rowsOf_eq, mnemonicOf, ho, hz]

theorem EncodeLegal.verify (p0 p1 c : Byte) : EncodeLegal.Statement (.verify p0 p1 c) := by
  have ho : opOf (encode (.verify p0 p1 c)) = 0x2#4 := opOf_bytes3 0x2#4 p0 p1 c
  have hz : mbzP24 (encode (.verify p0 p1 c)) = 0 := mbzP24_bytes3 0x2#4 p0 p1 c
  simp [EncodeLegal.Statement, rowsOf_eq, mnemonicOf, ho, hz]

theorem EncodeLegal.cvtc (code : Code) : EncodeLegal.Statement (.cvtc code) := by
  have ho : opOf (encode (.cvtc code)) = 0x3#4 := opOf_code 0x3#4 code
  have hz : mbzP16 (encode (.cvtc code)) = 0 := mbzP16_code 0x3#4 code
  simp [EncodeLegal.Statement, rowsOf_eq, mnemonicOf, ho, hz]

theorem EncodeLegal.cvtf (code : Code) : EncodeLegal.Statement (.cvtf code) := by
  have ho : opOf (encode (.cvtf code)) = 0x4#4 := opOf_code 0x4#4 code
  have hz : mbzP16 (encode (.cvtf code)) = 0 := mbzP16_code 0x4#4 code
  simp [EncodeLegal.Statement, rowsOf_eq, mnemonicOf, ho, hz]

theorem EncodeLegal.cvrh (code : Code) : EncodeLegal.Statement (.cvrh code) := by
  have ho : opOf (encode (.cvrh code)) = 0x5#4 := opOf_code 0x5#4 code
  have hz : mbzP16 (encode (.cvrh code)) = 0 := mbzP16_code 0x5#4 code
  simp [EncodeLegal.Statement, rowsOf_eq, mnemonicOf, ho, hz]

theorem EncodeLegal.frame (b0 b1 b2 b3 b4 b5 : Byte) : EncodeLegal.Statement (.frame b0 b1 b2 b3 b4 b5) := by
  have ho : opOf (encode (.frame b0 b1 b2 b3 b4 b5)) = 0x6#4 := opOf_bytes6 0x6#4 b0 b1 b2 b3 b4 b5
  simp [EncodeLegal.Statement, rowsOf_eq, mnemonicOf, ho]

theorem EncodeLegal.vstat (p0 p1 c : Byte) : EncodeLegal.Statement (.vstat p0 p1 c) := by
  have ho : opOf (encode (.vstat p0 p1 c)) = 0x7#4 := opOf_bytes3 0x7#4 p0 p1 c
  have hz : mbzP24 (encode (.vstat p0 p1 c)) = 0 := mbzP24_bytes3 0x7#4 p0 p1 c
  simp [EncodeLegal.Statement, rowsOf_eq, mnemonicOf, ho, hz]

theorem EncodeLegal.rdtc : EncodeLegal.Statement .rdtc := by unfold EncodeLegal.Statement; decide

theorem EncodeLegal.rdtf : EncodeLegal.Statement .rdtf := by unfold EncodeLegal.Statement; decide

theorem EncodeLegal.rdrh : EncodeLegal.Statement .rdrh := by unfold EncodeLegal.Statement; decide

theorem EncodeLegal.rdflg : EncodeLegal.Statement .rdflg := by unfold EncodeLegal.Statement; decide

end Sys2Proof.Laws
end

