-- ==== Sys2Proof/Laws/Port.lean ====
section
/-! SUPPORT. One lemma per kind of clock cycle (R39, R105, R107). -/

namespace Sys2Proof.Machine

/-- A cycle with `rst = 1`. -/
theorem Port.tick_reset {p : Port} {i : PortIn} (h : i.rst = true) : p.tick i = p.inReset := by
  simp only [Port.tick, h, if_true]

/-- A cycle with the port ready. -/
theorem Port.tick_idle {p : Port} {i : PortIn} (h : i.rst = false) (hp : p.phase = .idle) :
    p.tick i = p.listen i true := by
  simp [Port.tick, h, hp]

/-- The first cycle with `rst = 0` after a reset. -/
theorem Port.tick_starting {p : Port} {i : PortIn} (h : i.rst = false) (hp : p.phase = .starting) :
    p.tick i = p.listen i (Config.firstCycleReady p.cycle) := by
  simp [Port.tick, h, hp]

/-- A cycle of waiting for the response. -/
theorem Port.tick_busy {p : Port} {i : PortIn} {w : CmdWord} {n : Nat} (h : i.rst = false)
    (hp : p.phase = .busy w (n + 1)) : p.tick i = p.quiet (.busy w n) false := by
  simp [Port.tick, h, hp]

/-- The response cycle. -/
theorem Port.tick_finish {p : Port} {i : PortIn} {w : CmdWord} (h : i.rst = false) (hp : p.phase = .busy w 0) :
    p.tick i = p.finish w := by
  simp [Port.tick, h, hp]

/-- A cycle before the first reset. -/
theorem Port.tick_unreset {p : Port} {i : PortIn} (h : i.rst = false) (hp : p.phase = .unreset) :
    p.tick i = p.beforeReset i := by
  simp [Port.tick, h, hp]

/-- A run of one cycle more. -/
theorem Port.run_cons {p p' p'' : Port} {i : PortIn} {is : List PortIn} {o : PortOut} {os : List PortOut}
    (h : p.tick i = .next (p', o)) (hr : p'.run is = .next (p'', os)) :
    p.run (i :: is) = .next (p'', o :: os) := by
  simp only [Port.run, h, hr]

/-- What a cycle with the port ready can do: accept the word presented, or nothing. -/
theorem Port.listen_cases (p : Port) (i : PortIn) (ready : Bool) (hp : p.phase.pending = none) :
    ∃ p' o, p.listen i ready = .next (p', o) ∧ p'.phase ≠ .unreset ∧ o.rspValid = false ∧ p'.block = p.block ∧
      p'.phase.pending = if i.cmdValid && o.cmdReady then some i.cmd else p.phase.pending := by
  unfold Port.listen
  split
  · exact ⟨_, _, rfl, by simp, rfl, rfl, by simp_all [Phase.pending]⟩
  · exact ⟨_, _, rfl, by simp, rfl, rfl, by simp_all [Phase.pending]⟩

/-- All that a cycle can do after the first reset: reset; answer the command under way; or leave the block alone. -/
theorem Port.tick_cases (p : Port) (i : PortIn) (h : p.phase ≠ .unreset) :
    ∃ p' o, p.tick i = .next (p', o) ∧ p'.phase ≠ .unreset ∧
      ((i.rst = true ∧ o.rspValid = false ∧ p'.block = hostReset p.block ∧ p'.phase.pending = none) ∨
       (i.rst = false ∧ o.rspValid = true ∧ ∃ w, p.phase.pending = some w ∧ runCommand w p.block = .next p'.block ∧
         p'.block.outputs = p.block.outputs ++ [o.rsp] ∧ p'.phase = .idle) ∨
       (i.rst = false ∧ o.rspValid = false ∧ p'.block = p.block ∧
         p'.phase.pending = if i.cmdValid && o.cmdReady then some i.cmd else p.phase.pending)) := by
  by_cases hr : i.rst = true
  · rw [Port.tick_reset hr]
    exact ⟨_, _, rfl, by simp, .inl ⟨hr, rfl, rfl, rfl⟩⟩
  · have hr : i.rst = false := by simpa using hr
    cases hp : p.phase with
    | unreset => exact absurd hp h
    | starting =>
      obtain ⟨p', o, h1, h2, h3, h4, h5⟩ := p.listen_cases i (Config.firstCycleReady p.cycle) (by rw [hp]; rfl)
      exact ⟨p', o, (Port.tick_starting hr hp).trans h1, h2, .inr (.inr ⟨hr, h3, h4, by rw [h5, hp]⟩)⟩
    | idle =>
      obtain ⟨p', o, h1, h2, h3, h4, h5⟩ := p.listen_cases i true (by rw [hp]; rfl)
      exact ⟨p', o, (Port.tick_idle hr hp).trans h1, h2, .inr (.inr ⟨hr, h3, h4, by rw [h5, hp]⟩)⟩
    | busy w n =>
      cases n with
      | zero =>
        rw [Port.tick_finish hr hp, Port.finish]
        obtain ⟨u, r, h1, h2, _⟩ := runCommand_emits w p.block
        rw [h1]
        exact ⟨_, _, rfl, by simp, .inr (.inl ⟨hr, rfl, w, rfl, h1, by simp [h2], rfl⟩)⟩
      | succ n =>
        rw [Port.tick_busy hr hp]
        exact ⟨_, _, rfl, by simp, .inr (.inr ⟨hr, rfl, rfl, by simp [Phase.pending]⟩)⟩

end Sys2Proof.Machine
end

