-- ==== Sys2Proof/Tests/Slice0.lean ====
section
/-! SUPPORT. Tests: ill-formed terms the checks refuse, words and responses as spec/95_test_vectors.md and R52 list them,
and for every obligation with hypotheses a witness that meets them. -/

namespace Sys2Proof.Tests

open Sys2Proof.Machine

/-- The state a command goes on in, if it goes on. -/
def nextOf : Result → Option State
  | .next s => some s
  | .fault _ => none
  | .refused _ => none

/-- What is read off the state after a command. -/
def seen {α : Type} (view : State → α) (r : Result) : Option α := (nextOf r).map view

/-- The flags image `{READY, HRDY, TRDY, HV, TV}` and the last response. -/
def flagsAndResponse (s : State) : BitVec 5 × Option RspWord := (s.flags, s.outputs.getLast?)

/-- The result registers. -/
def results (s : State) : Milli × Milli × Milli := (s.tc, s.tf, s.rh)

/-- A block after reset, with some values in the result registers. -/
def fresh : State :=
  { tc := 0xABCDE, tf := 0x12345, rh := 0x54321, tv := false, hv := false, trdy := false, hrdy := false,
    resets := 1, inputs := [], outputs := [] }

/-- A block after the good frame of 95_test_vectors.md P1 (code 0x6666 twice), nothing read yet. -/
def good : State :=
  { fresh with tc := 0x061A8, tf := 0x12CC8, rh := 0x09C40, tv := true, hv := true, trdy := true, hrdy := true }

/-! ### Ill-formed words and lines -/

/-- 2.8: reserved opcodes. -/
theorem test_reserved_opcode :
    legalWord 0x0000000000000 = false ∧ decode 0x0000000000000 = .error (.reservedOpcode 0x0) ∧
    legalWord 0xC000000000000 = false ∧ decode 0xC000000000000 = .error (.reservedOpcode 0xC) ∧
    legalWord 0xFFFFFFFFFFFFF = false ∧ decode 0xFFFFFFFFFFFFF = .error (.reservedOpcode 0xF) := by decide

/-- 2.8: stray bits in formats P16, P24 and N. -/
theorem test_stray_bits :
    legalWord 0x100000001BEEF = false ∧ decode 0x100000001BEEF = .error (.strayBits 0x1) ∧
    legalWord 0x3800000006666 = false ∧ decode 0x3800000006666 = .error (.strayBits 0x3) ∧
    legalWord 0x2000001BEEF92 = false ∧ decode 0x2000001BEEF92 = .error (.strayBits 0x2) ∧
    legalWord 0x70001008010E1 = false ∧ decode 0x70001008010E1 = .error (.strayBits 0x7) ∧
    legalWord 0x8000000000001 = false ∧ decode 0x8000000000001 = .error (.strayBits 0x8) ∧
    legalWord 0xB000000000010 = false ∧ decode 0xB000000000010 = .error (.strayBits 0xB) := by decide

/-- R41, R50: an operand that does not fit its field, for each kind of line. -/
theorem test_operand_too_large :
    (AsmLine.crc8 0x100 0).wellFormed = false ∧ (AsmLine.verify 0 0 0x100).wellFormed = false ∧
    (AsmLine.cvtc 0x10000).wellFormed = false ∧ (AsmLine.cvtf 0x10000).wellFormed = false ∧
    (AsmLine.cvrh 0x10000).wellFormed = false ∧ (AsmLine.frame 0 0 0 0 0 0x100).wellFormed = false ∧
    (AsmLine.vstat 0 0x100 0).wellFormed = false ∧ assemble [.rdtc, .cvtc 0x10000] = none := by decide

/-! ### Decoding -/

/-- R52: the eleven spelled words, and FRAME's extreme words (2.8). -/
theorem test_decode_words :
    decode 0x100000000BEEF = .ok (.crc8 0xBE 0xEF) ∧ decode 0x2000000BEEF92 = .ok (.verify 0xBE 0xEF 0x92) ∧
    decode 0x3000000006666 = .ok (.cvtc 0x6666) ∧ decode 0x4000000006666 = .ok (.cvtf 0x6666) ∧
    decode 0x5000000006666 = .ok (.cvrh 0x6666) ∧
    decode 0x6612197BEEF00 = .ok (.frame 0x61 0x21 0x97 0xBE 0xEF 0x00) ∧
    decode 0x6FFFFFFFFFFFF = .ok (.frame 0xFF 0xFF 0xFF 0xFF 0xFF 0xFF) ∧
    decode 0x70000008010E1 = .ok (.vstat 0x80 0x10 0xE1) ∧ decode 0x8000000000000 = .ok .rdtc ∧
    decode 0x9000000000000 = .ok .rdtf ∧ decode 0xA000000000000 = .ok .rdrh ∧ decode 0xB000000000000 = .ok .rdflg := by
  decide

/-- R40, R41: words written bit by bit, `op`, must-be-zero bits, operand bytes. -/
theorem test_decode_bits :
    decode (0b0001#4 ++ 0#32 ++ 0b10111110#8 ++ 0b11101111#8) = .ok (.crc8 0xBE 0xEF) ∧
    decode (0b0111#4 ++ 0#24 ++ 0b10000000#8 ++ 0b00010000#8 ++ 0b11100001#8) = .ok (.vstat 0x80 0x10 0xE1) ∧
    decode (0b1011#4 ++ 0#48) = .ok .rdflg := by decide

/-- The table's words through the host's view: 52 bits a row, in whole bytes 56. -/
theorem test_table_words :
    decodeTableWord 56 0x1000000000000 = some (.crc8 0 0) ∧ decodeTableWord 52 0xB000000000000 = some .rdflg ∧
    decodeTableWord 56 0xF000000000000 = none ∧ decodeTableWord 56 0x1B000000000000 = none := by decide

/-- R52: each constructor's word from the encoder. -/
theorem test_encode_words :
    encode (.crc8 0xBE 0xEF) = 0x100000000BEEF ∧ encode (.verify 0xBE 0xEF 0x92) = 0x2000000BEEF92 ∧
    encode (.cvtc 0x6666) = 0x3000000006666 ∧ encode (.cvtf 0x6666) = 0x4000000006666 ∧
    encode (.cvrh 0x6666) = 0x5000000006666 ∧
    encode (.frame 0x66 0x66 0x93 0x66 0x66 0x93) = 0x6666693666693 ∧
    encode (.vstat 0x80 0x10 0xE1) = 0x70000008010E1 ∧ encode .rdtc = 0x8000000000000 ∧
    encode .rdtf = 0x9000000000000 ∧ encode .rdrh = 0xA000000000000 ∧ encode .rdflg = 0xB000000000000 := by decide

/-- R50, R52, R53: text. -/
theorem test_text :
    readLine ['F', 'R', 'A', 'M', 'E', ' ', '0', 'x', '6', '6', ',', '0', 'x', '6', '6', ',', ' ', '0', 'x', '9', '3',
      ',', '0', 'x', '0', ',', '0', 'x', '1', ',', '0', 'x', 'f', 'F', ' ', ';', 'a'] =
        some [.frame 0x66 0x66 0x93 0 1 0xFF] ∧
    readLine ['.', 'r', 'e', 's', 'e', 't'] = some [.reset] ∧ readLine [' ', ';', 'R'] = some [] ∧
    readLine ['C', 'V', 'T', 'C', ' ', '0', 'x', '1', '0', '0', '0', '0'] = none ∧
    readLine ['r', 'd', 't', 'c'] = none ∧
    readCommand ['0', 'x', '3', '0', '0', '0', '0', '0', '0', '0', '0', '6', '6', '6', '6'] = some (encode (.cvtc 0x6666)) ∧
    responseText 0x40FFFF = ['0', 'x', '4', '0', 'F', 'F', 'F', 'F'] := by decide +kernel

/-! ### Commands -/

/-- 2.1: CRC8. -/
theorem test_crc8 :
    seen State.outputs (exec (.crc8 0xBE 0xEF) fresh) = some [0x000092] ∧
    seen State.outputs (exec (.crc8 0xEF 0xBE) fresh) = some [0x0000CE] := by decide +kernel

/-- 2.3: the register after the first byte. -/
theorem test_crc8_trace : crcAdvance 0x82 = 0x35 ∧ crcRun 0xFF [0xBE] = 0x0C := by decide +kernel

/-- 2.1: VERIFY. -/
theorem test_verify :
    seen State.outputs (exec (.verify 0xFF 0x00 0x00) fresh) = some [0x000001] ∧
    seen State.outputs (exec (.verify 0xBE 0xEF 0x12) fresh) = some [0x000000] := by decide +kernel

/-- 2.4: CVTC. -/
theorem test_cvtc :
    seen State.outputs (exec (.cvtc 0x0001) fresh) = some [0x0F503B] ∧
    seen State.outputs (exec (.cvtc 0xFFFE) fresh) = some [0x01FBCD] := by decide

/-- 2.4: CVTF. -/
theorem test_cvtf :
    seen State.outputs (exec (.cvtf 0x1234) fresh) = some [0x0F9817] ∧
    seen State.outputs (exec (.cvtf 0x41D4) fresh) = some [0x007D01] := by decide

/-- 2.4: CVRH. -/
theorem test_cvrh :
    seen State.outputs (exec (.cvrh 0x7FFF) fresh) = some [0x00C34F] ∧
    seen State.outputs (exec (.cvrh 0xFFFF) fresh) = some [0x0186A0] := by decide

/-- 2.5: both channels pass; the temperature channel fails after a good frame (S5). -/
theorem test_frame_flags :
    seen flagsAndResponse (exec (.frame 0x61 0x21 0x97 0xBE 0xEF 0x92) fresh) = some (0x1F, some 0x00001F) ∧
    seen flagsAndResponse (exec (.frame 0x61 0x21 0x00 0xBE 0xEF 0x92) good) = some (0x1E, some 0x10001E) := by
  decide +kernel

/-- 2.5: the result registers of those rows. -/
theorem test_frame_results :
    seen results (exec (.frame 0x61 0x21 0x97 0xBE 0xEF 0x92) fresh) = some (0x05396, 0x11374, 0x12359) ∧
    seen results (exec (.frame 0x61 0x21 0x00 0xBE 0xEF 0x92) good) = some (0x061A8, 0x12CC8, 0x12359) := by
  decide +kernel

/-- 2.6: VSTAT. -/
theorem test_vstat :
    seen State.outputs (exec (.vstat 0x80 0x10 0xE1) fresh) = some [0x008010] ∧
    seen State.outputs (exec (.vstat 0x10 0x80 0xE1) fresh) = some [0x40FFFF] := by decide +kernel

/-- 2.7: RDTC. -/
theorem test_rdtc : seen flagsAndResponse (exec .rdtc good) = some (0x0B, some 0x0061A8) := by decide

/-- 2.7: RDTF. -/
theorem test_rdtf : seen flagsAndResponse (exec .rdtf good) = some (0x0B, some 0x012CC8) := by decide

/-- 2.7: RDRH. -/
theorem test_rdrh : seen flagsAndResponse (exec .rdrh good) = some (0x07, some 0x009C40) := by decide

/-- 2.7: RDFLG. -/
theorem test_rdflg :
    seen flagsAndResponse (exec .rdflg good) = some (0x1F, some 0x00001F) ∧
    seen flagsAndResponse (exec .rdflg fresh) = some (0x00, some 0x000000) := by decide

/-- 2.8: RDTC with a stray bit answers 0x800000 and does not clear `TRDY`. -/
theorem test_illegal :
    seen flagsAndResponse (step (good.withFetchWord 52 0x8000000000001)) = some (0x1F, some 0x800000) := by decide

/-- 2.5: the first instruction after reset. -/
theorem test_first_step :
    seen State.tc (step (State.reset.withFetchWord 56 0x6666693666693)) = some 0x061A8 := by decide +kernel

/-- R39: the response cycle of RDTC at the port. -/
theorem test_port_response :
    (match (⟨good, .busy 0x8000000000000 0, 5⟩ : Port).tick ⟨false, false, 0⟩ with
      | .next (p, o) => some (p.phase, p.block.trdy, o)
      | .fault _ => none
      | .refused _ => none) = some (.idle, false, ⟨false, true, 0x0061A8⟩) := by decide +kernel

/-- R105: a cycle with `rst = 1` drives `cmd_ready` and `rsp_valid` to 0, even in the response cycle of a command. -/
theorem test_port_reset :
    (match (⟨good, .busy 0x8000000000000 0, 5⟩ : Port).tick ⟨true, true, 0⟩ with
      | .next (p, o) => some (p.phase, p.block.trdy, o.cmdReady, o.rspValid)
      | .fault _ => none
      | .refused _ => none) = some (.starting, false, false, false) := by decide +kernel

/-- P3: sample() in degrees Celsius, the second time with a frame whose humidity channel is corrupt. -/
theorem test_sample :
    ((sample .celsius ⟨0x61, 0x21, 0x97⟩ ⟨0xBE, 0xEF, 0x92⟩ fresh).map fun (v, s) => (v, s.outputs)) =
        some (some (0x05396, 0x12359), [0x000000, 0x00001F, 0x005396, 0x012359]) ∧
    ((sample .celsius ⟨0x61, 0x21, 0x97⟩ ⟨0xBE, 0xEF, 0x00⟩
        { fresh with tc := 0x05396, tf := 0x11374, rh := 0x12359, tv := true, hv := true }).map
        fun (v, s) => (v, s.flags, s.outputs)) = some (none, 0x05, [0x000003, 0x200005]) := by decide +kernel

/-! ### Witnesses for the hypotheses of the obligations -/

/-- EncodeOfDecode. -/
theorem witness_EncodeOfDecode : decode 0x2000000BEEF92 = .ok (.verify 0xBE 0xEF 0x92) := by decide

/-- ReservedOpcodesIllegal: the lowest and the highest reserved opcode. -/
theorem witness_ReservedOpcodesIllegal :
    (0x0#4 ∈ [0x0#4, 0xC#4, 0xD#4, 0xE#4, 0xF#4]) ∧ (0xF#4 ∈ [0x0#4, 0xC#4, 0xD#4, 0xE#4, 0xF#4]) := by decide

/-- StrayBitsIllegal: an opcode of each format, with its bits zero and with its lowest one set. -/
theorem witness_StrayBitsIllegal :
    legalWord (0x5#4 ++ 0x00000000FFFF#48) = true ∧ legalWord (0x5#4 ++ 0x000000010000#48) = false ∧
    legalWord (0x7#4 ++ 0x000000FFFFFF#48) = true ∧ legalWord (0x7#4 ++ 0x000001000000#48) = false ∧
    legalWord (0xB#4 ++ 0x000000000000#48) = true ∧ legalWord (0xB#4 ++ 0x000000000001#48) = false ∧
    legalWord (0x6#4 ++ 0xFFFFFFFFFFFF#48) = true := by decide

/-- DecodeFollowsTable: a word of each of its two reachable cases. -/
theorem witness_DecodeFollowsTable : (rowsOf 0x8000000000000).length = 1 ∧ rowsOf 0x8000000000001 = [] := by decide

/-- WrittenLinesAreCommands: operands at the top of their ranges. -/
theorem witness_WrittenLinesAreCommands :
    (AsmLine.crc8 255 255).wellFormed = true ∧ (AsmLine.cvtc 65535).wellFormed = true ∧
    (AsmLine.frame 255 255 255 255 255 255).wellFormed = true ∧ AsmLine.reset.wellFormed = true := by decide

/-- SpellingReadsBack: two words spelled alike. -/
theorem witness_SpellingReadsBack : responseText 0x800000 = responseText 0x800000 := rfl

/-- StepRunsDecodedCommand. -/
theorem witness_StepRunsDecodedCommand :
    decode 0xB000000000000 = .ok .rdflg ∧
      (good.setInputs [.command 0xB000000000000, .reset]).inputs = .command 0xB000000000000 :: [.reset] := by decide

/-- IllegalWordAnswered. -/
theorem witness_IllegalWordAnswered :
    (good.setInputs [.command 0xC000000000000]).inputs = .command 0xC000000000000 :: [] ∧
      legalWord 0xC000000000000 = false := by decide

/-- RunAnswersInOrder. -/
theorem witness_RunAnswersInOrder :
    (load [.command 0x8000000000000, .reset]).inputs = .command 0x8000000000000 :: [.reset] := rfl

/-- IdleBlockHoldsState. -/
theorem witness_IdleBlockHoldsState : State.reset.inputs = [] := rfl

/-- VerifyRoundTrip: the highest bit. -/
theorem witness_VerifyRoundTrip : 7 < 8 := by decide

/-- SmallErrorsDetected: two channels that pass. -/
theorem witness_SmallErrorsDetected : chk 0xBE 0xEF 0x92 = true ∧ chk 0xFF 0x00 0x00 = true := by decide +kernel

/-- BrokenBusFramesFail: both bytes. -/
theorem witness_BrokenBusFramesFail : 0x00#8 ∈ [0x00#8, 0xFF#8] ∧ 0xFF#8 ∈ [0x00#8, 0xFF#8] := by decide

/-- ConversionSteps: the last code that has a next one. -/
theorem witness_ConversionSteps : (0xFFFE#16).toNat < 65535 := by decide

/-- ConversionsExactAndDistinct. -/
theorem witness_ConversionsExactAndDistinct : cvtTc 0xFFFF = cvtTc 0xFFFF ∨ cvtTf 0xFFFF = cvtTf 0xFFFF ∨
    cvtRh 0xFFFF = cvtRh 0xFFFF := .inl rfl

/-- StaleOnInvalid, FrameWarnings: a channel that fails, another failing one, and one that passes. -/
theorem witness_StaleOnInvalid : chk 0x61 0x21 0x00 = false ∧ chk 0x00 0x00 0x00 = false ∧ chk 0xBE 0xEF 0x92 = true := by
  decide +kernel

/-- GoodFrameForgetsOldState: both channels pass. -/
theorem witness_GoodFrameForgetsOldState : chk 0x66 0x66 0x93 = true ∧ chk 0x61 0x21 0x97 = true := by decide +kernel

/-- SentinelToldByWarning, EventBitsExact, EventsNeverMix: a response with `WS` set, and one with `ILL` set. -/
theorem witness_events :
    seen (fun t => t.outputs.map rspWs) (exec (.vstat 0 0 0) fresh) = some [true] ∧
    seen (fun t => t.outputs.map rspIll) (runCommand 0 fresh) = some [true] := by decide +kernel

/-- PureCommandsIgnoreState: each of the six shapes. -/
theorem witness_PureCommandsIgnoreState :
    (∃ a b, Instr.crc8 0 1 = .crc8 a b) ∧ (∃ a b c, Instr.verify 0 1 2 = .verify a b c) ∧ (∃ c, Instr.cvtc 0 = .cvtc c) ∧
    (∃ c, Instr.cvtf 0 = .cvtf c) ∧ (∃ c, Instr.cvrh 0 = .cvrh c) ∧ (∃ a b c, Instr.vstat 0 1 2 = .vstat a b c) :=
  ⟨⟨_, _, rfl⟩, ⟨_, _, _, rfl⟩, ⟨_, rfl⟩, ⟨_, rfl⟩, ⟨_, rfl⟩, ⟨_, _, _, rfl⟩⟩

/-- ResultRegistersOnlyByFrame: a FRAME whose temperature channel passes and whose humidity channel fails, and a word that
is no FRAME. -/
theorem witness_ResultRegistersOnlyByFrame :
    decode 0x6612197BEEF00 = .ok (.frame 0x61 0x21 0x97 0xBE 0xEF 0x00) ∧ crc8 0x61 0x21 = 0x97 ∧ crc8 0xBE 0xEF = 0x92 ∧
      decode 0x8000000000000 = .ok .rdtc := by decide +kernel

/-- NoHiddenState: two states that differ in what the host did and will do. -/
theorem witness_NoHiddenState : SameRegisters good { good with inputs := [.reset], outputs := [0], resets := 7 } :=
  ⟨rfl, rfl, rfl, rfl, rfl, rfl, rfl⟩

/-- StepKeepsInvariant: a state that holds converted codes and flags, and its step. -/
theorem witness_StepKeepsInvariant :
    good.Inv ∧ step (good.setInputs [.command 0x8000000000000]) =
      .next { good with trdy := false, outputs := [0x0061A8] } := by
  have ht : good.TemperatureConverted := ⟨0x6666, by decide⟩
  have hh : good.HumidityConverted := ⟨0x6666, by decide⟩
  exact ⟨⟨.inl ht, .inl hh, fun _ => ht, fun _ => hh⟩, rfl⟩

/-- ResetState: a state no reset has been taken in. -/
theorem witness_ResetState : ({ fresh with resets := 0 } : State).resets = 0 ∧ fresh.inputs = [] ∧ fresh.outputs = [] := by
  decide

/-- SampleProcedure: both ready at once; ready after the frame; not ready after it (95_test_vectors.md P3). -/
theorem witness_SampleProcedure :
    (good.trdy = true ∧ good.hrdy = true) ∧
    (¬(fresh.trdy = true ∧ fresh.hrdy = true) ∧
      seen State.ready (exec (.frame 0x61 0x21 0x97 0xBE 0xEF 0x92) fresh) = some true ∧
      seen State.ready (exec (.frame 0x61 0x21 0x97 0xBE 0xEF 0x00) fresh) = some false) := by decide +kernel

/-- PortRefinesCommandRun: a port after reset, and one in the middle of a command. -/
theorem witness_PortRefinesCommandRun :
    (⟨State.reset, .starting, 1⟩ : Port).phase ≠ .unreset ∧ State.reset.inputs = [] ∧
    (⟨good, .busy 0x8000000000000 3, 9⟩ : Port).phase ≠ .unreset ∧ good.inputs = [] :=
  ⟨by simp, rfl, by simp, rfl⟩

/-- ResponseAfterLatency: an idle port and as many cycles as the latency. -/
theorem witness_ResponseAfterLatency :
    (⟨good, .idle, 0⟩ : Port).phase = .idle ∧ NoReset (List.replicate (Config.lat 0 0) ⟨false, true, 0⟩) ∧
      (List.replicate (Config.lat 0 0) (⟨false, true, 0⟩ : PortIn)).length = Config.lat 0 0 := by
  refine ⟨rfl, ?_, by simp⟩
  intro i hi
  rw [List.eq_of_mem_replicate hi]

/-- BusyPortIgnoresCommands: in the response cycle, and before it. -/
theorem witness_BusyPortIgnoresCommands :
    (⟨good, .busy 0x8000000000000 0, 0⟩ : Port).phase = .busy 0x8000000000000 0 ∧
    (⟨good, .busy 0x8000000000000 2, 0⟩ : Port).phase = .busy 0x8000000000000 2 := ⟨rfl, rfl⟩

/-- ResetAbandonsCommand: reset in the first cycle after the acceptance. -/
theorem witness_ResetAbandonsCommand :
    (⟨good, .idle, 0⟩ : Port).phase = .idle ∧ NoReset [] ∧ ([] : List PortIn).length < Config.lat 0 0 :=
  ⟨rfl, by simp [NoReset], by simp [Config.lat]⟩

/-- FirstResetStartsPort. -/
theorem witness_FirstResetStartsPort : (⟨fresh, .unreset, 0⟩ : Port).phase = .unreset := rfl

end Sys2Proof.Tests
end

section
/-! What a step does with the host's next event (R10, R19, R47). -/

namespace Sys2Proof.Machine

/-- With an event waiting, a step takes it from the front and runs it (R10, R19). -/
theorem step_cons {s : State} {e : HostEvent} {es : List HostEvent} (h : s.inputs = e :: es) :
    step s = runEvent e (s.setInputs es) := by
  simp only [step, nextEvent_cons h]

/-- With a word waiting that decodes, a step runs its command (R47). -/
theorem step_command_ok {s : State} {w : CmdWord} {i : Instr} {es : List HostEvent}
    (h : s.inputs = .command w :: es) (hd : decode w = .ok i) : step s = exec i (s.setInputs es) :=
  calc step s = runCommand w (s.setInputs es) := step_cons h
    _ = exec i (s.setInputs es) := runCommand_ok hd _

/-- A whole command word fits the 52 bits fetched, so it is placed unchanged. -/
theorem State.withFetchWord_toNat (s : State) (w : CmdWord) : s.withFetchWord 52 w.toNat = placeCommand w s := by
  have hw : BitVec.ofNat 52 (w.toNat % 2 ^ 52) = w := by
    rw [Nat.mod_eq_of_lt w.isLt, BitVec.ofNat_toNat, BitVec.setWidth_eq]
  rw [State.withFetchWord, hw]

/-- A step takes exactly the word placed for it: the host's other events are those it had before. -/
theorem step_placeCommand_ok {w : CmdWord} {i : Instr} (hd : decode w = .ok i) (s : State) :
    step (placeCommand w s) = exec i s :=
  step_command_ok (s := placeCommand w s) rfl hd

/-- Settles O9: a word waiting, or one put there by `withFetchWord`, is taken and its command run. -/
theorem stepRunsDecodedCommand : Obligations.StepRunsDecodedCommand := by
  intro s w i hd
  refine ⟨fun es h => step_command_ok h hd, ?_⟩
  rw [State.withFetchWord_toNat]
  exact step_placeCommand_ok hd s

end Sys2Proof.Machine
end

section
/-! What a command word does to the registers, said once for all words: which operation on the state it is (R20, R44,
R93), and that the operations touch no field of the host's side. -/

namespace Sys2Proof.Machine

/-- The command is none of the four that write a register: FRAME, RDTC, RDTF, RDRH (R20). -/
def KeepsRegisters : Instr → Prop
  | .frame _ _ _ _ _ _ => False
  | .rdtc => False
  | .rdtf => False
  | .rdrh => False
  | _ => True

/-- What the word `w` does to the registers of a state, the response left aside. -/
inductive RegisterEffect (w : CmdWord) (s : State) : State → Prop where
  /-- FRAME takes both its channels (R76). -/
  | frame {b0 b1 b2 b3 b4 b5 : Byte} (hd : decode w = .ok (.frame b0 b1 b2 b3 b4 b5)) :
      RegisterEffect w s ((s.takeTemperature ⟨b0, b1, b2⟩).takeHumidity ⟨b3, b4, b5⟩)
  /-- RDTC and RDTF consume the temperature (R84, R85). -/
  | readTemperature (hd : decode w = .ok .rdtc ∨ decode w = .ok .rdtf) : RegisterEffect w s (s.setTrdy false)
  /-- RDRH consumes the humidity (R86). -/
  | readHumidity (hd : decode w = .ok .rdrh) : RegisterEffect w s (s.setHrdy false)
  /-- Any other command, or no command at all (R93). -/
  | keep (hk : ∀ i, decode w = .ok i → KeepsRegisters i) : RegisterEffect w s s

/-- FRAME gives one response over both channels taken (R76). -/
theorem exec_frame (b0 b1 b2 b3 b4 b5 : Byte) (s : State) : exec (.frame b0 b1 b2 b3 b4 b5) s =
    .next (((s.takeTemperature ⟨b0, b1, b2⟩).takeHumidity ⟨b3, b4, b5⟩).emit
      (responseWord false false (!chk b3 b4 b5) (!chk b0 b1 b2)
        (zext20 ((s.takeTemperature ⟨b0, b1, b2⟩).takeHumidity ⟨b3, b4, b5⟩).flags))) := rfl

/-- VSTAT changes nothing; its response is the status word, or the sentinel with `WS` (R80). -/
theorem exec_vstat (p0 p1 c : Byte) (s : State) : exec (.vstat p0 p1 c) s =
    .next (s.emit (responseWord false (!chk p0 p1 c) false false
      (zext20 (if chk p0 p1 c then code16 p0 p1 else statusSentinel)))) := by
  simp only [exec, execVstat]
  cases chk p0 p1 c <;> rfl

/-- A command that writes no register only gives its response. -/
theorem exec_of_keepsRegisters {i : Instr} (hk : KeepsRegisters i) (s : State) :
    ∃ r, exec i s = .next (s.emit r) := by
  cases i with
  | crc8 p0 p1 => exact ⟨_, rfl⟩
  | verify p0 p1 c => exact ⟨_, rfl⟩
  | cvtc code => exact ⟨_, rfl⟩
  | cvtf code => exact ⟨_, rfl⟩
  | cvrh code => exact ⟨_, rfl⟩
  | vstat p0 p1 c => exact ⟨_, exec_vstat p0 p1 c s⟩
  | rdflg => exact ⟨_, rfl⟩
  | frame | rdtc | rdtf | rdrh => exact hk.elim

/-- Every word has one of the effects, and then gives one response. -/
theorem runCommand_effect (w : CmdWord) (s : State) :
    ∃ t r, RegisterEffect w s t ∧ runCommand w s = .next (t.emit r) := by
  cases hd : decode w with
  | error e =>
    have hk : ∀ i, decode w = .ok i → KeepsRegisters i := by simp [hd]
    exact ⟨s, _, .keep hk, runCommand_error hd s⟩
  | ok i =>
    rw [runCommand_ok hd]
    by_cases hk : KeepsRegisters i
    · obtain ⟨r, hr⟩ := exec_of_keepsRegisters hk s
      have hw : ∀ j, decode w = .ok j → KeepsRegisters j := by simpa [hd] using hk
      exact ⟨s, r, .keep hw, hr⟩
    · cases i with
      | frame b0 b1 b2 b3 b4 b5 => exact ⟨_, _, .frame hd, rfl⟩
      | rdtc => exact ⟨_, _, .readTemperature (.inl hd), rfl⟩
      | rdtf => exact ⟨_, _, .readTemperature (.inr hd), rfl⟩
      | rdrh => exact ⟨_, _, .readHumidity hd, rfl⟩
      | crc8 | verify | cvtc | cvtf | cvrh | vstat | rdflg => exact (hk trivial).elim

/-- The registers of `s` with the host's side of `h`: what it will do, what it was answered, and its count of resets. -/
def State.onHostOf (s h : State) : State :=
  { s with resets := h.resets, inputs := h.inputs, outputs := h.outputs }

/-- A state with the registers of `s` is `s` but for the host's side (R13). -/
theorem SameRegisters.eq_onHostOf {s t : State} (h : SameRegisters s t) : t = s.onHostOf t := by
  obtain ⟨htc, htf, hrh, htv, hhv, htrdy, hhrdy⟩ := h
  rw [State.onHostOf, ← htc, ← htf, ← hrh, ← htv, ← hhv, ← htrdy, ← hhrdy]

theorem State.takeTemperature_onHostOf (s h : State) (ch : Channel) :
    (s.onHostOf h).takeTemperature ch = (s.takeTemperature ch).onHostOf h := by
  unfold State.takeTemperature
  cases ch.ok <;> rfl

theorem State.takeHumidity_onHostOf (s h : State) (ch : Channel) :
    (s.onHostOf h).takeHumidity ch = (s.takeHumidity ch).onHostOf h := by
  unfold State.takeHumidity
  cases ch.ok <;> rfl

/-- What a command writes and answers does not depend on the host's side, which it keeps but for the response given. -/
theorem exec_onHostOf (i : Instr) (s : State) :
    ∃ (u : State) (r : RspWord), ∀ h : State, exec i (s.onHostOf h) = .next ((u.onHostOf h).emit r) := by
  cases i with
  | crc8 p0 p1 => exact ⟨s, _, fun _ => rfl⟩
  | verify p0 p1 c => exact ⟨s, _, fun _ => rfl⟩
  | cvtc code => exact ⟨s, _, fun _ => rfl⟩
  | cvtf code => exact ⟨s, _, fun _ => rfl⟩
  | cvrh code => exact ⟨s, _, fun _ => rfl⟩
  | frame b0 b1 b2 b3 b4 b5 =>
    refine ⟨(s.takeTemperature ⟨b0, b1, b2⟩).takeHumidity ⟨b3, b4, b5⟩, responseWord false false (!chk b3 b4 b5)
      (!chk b0 b1 b2) (zext20 ((s.takeTemperature ⟨b0, b1, b2⟩).takeHumidity ⟨b3, b4, b5⟩).flags), fun h => ?_⟩
    rw [exec_frame, State.takeTemperature_onHostOf, State.takeHumidity_onHostOf]
    rfl
  | vstat p0 p1 c => exact ⟨s, _, fun _ => exec_vstat p0 p1 c _⟩
  | rdtc => exact ⟨s.setTrdy false, _, fun _ => answer_eq s.tc _⟩
  | rdtf => exact ⟨s.setTrdy false, _, fun _ => answer_eq s.tf _⟩
  | rdrh => exact ⟨s.setHrdy false, _, fun _ => answer_eq s.rh _⟩
  | rdflg => exact ⟨s, _, fun _ => answer_eq (zext20 s.flags) _⟩

/-- The same of any word, the illegal ones among them (R93). -/
theorem runCommand_onHostOf (w : CmdWord) (s : State) :
    ∃ (u : State) (r : RspWord), ∀ h : State, runCommand w (s.onHostOf h) = .next ((u.onHostOf h).emit r) := by
  cases hd : decode w with
  | error e => exact ⟨s, _, fun h => runCommand_error hd _⟩
  | ok i => simpa only [runCommand_ok hd] using exec_onHostOf i s

end Sys2Proof.Machine
end

section
/-! The invariant of the result registers and the flags: reset establishes it and every operation keeps it (R14 to R16,
R21 to R23, R26). -/

namespace Sys2Proof.Machine

namespace State.Inv

/-- Any reset establishes the invariant, whatever stood in the registers (R26). -/
theorem of_hostReset (s : State) : (hostReset s).Inv where
  temperature := .inr ⟨rfl, rfl⟩
  humidity := .inr rfl
  temperatureFlagged := by simp
  humidityFlagged := by simp

variable {s : State}

theorem setInputs (h : s.Inv) (es : List HostEvent) : (s.setInputs es).Inv :=
  ⟨h.temperature, h.humidity, h.temperatureFlagged, h.humidityFlagged⟩

theorem emit (h : s.Inv) (r : RspWord) : (s.emit r).Inv :=
  ⟨h.temperature, h.humidity, h.temperatureFlagged, h.humidityFlagged⟩

theorem setTv_false (h : s.Inv) : (s.setTv false).Inv where
  temperature := h.temperature
  humidity := h.humidity
  temperatureFlagged hf := h.temperatureFlagged (.inr (by simpa using hf))
  humidityFlagged := h.humidityFlagged

theorem setHv_false (h : s.Inv) : (s.setHv false).Inv where
  temperature := h.temperature
  humidity := h.humidity
  temperatureFlagged := h.temperatureFlagged
  humidityFlagged hf := h.humidityFlagged (.inr (by simpa using hf))

theorem setTrdy_false (h : s.Inv) : (s.setTrdy false).Inv where
  temperature := h.temperature
  humidity := h.humidity
  temperatureFlagged hf := h.temperatureFlagged (.inl (by simpa using hf))
  humidityFlagged := h.humidityFlagged

theorem setHrdy_false (h : s.Inv) : (s.setHrdy false).Inv where
  temperature := h.temperature
  humidity := h.humidity
  temperatureFlagged := h.temperatureFlagged
  humidityFlagged hf := h.humidityFlagged (.inl (by simpa using hf))

/-- A temperature channel that passes leaves converted codes; one that fails only clears `TV` (R76, R77). -/
theorem takeTemperature (h : s.Inv) (ch : Channel) : (s.takeTemperature ch).Inv := by
  unfold State.takeTemperature
  split
  case isTrue =>
    have hc : ((((s.setTc (cvtTc ch.code)).setTf (cvtTf ch.code)).setTrdy true).setTv true).TemperatureConverted :=
      ⟨ch.code, rfl, rfl⟩
    exact ⟨.inl hc, h.humidity, fun _ => hc, h.humidityFlagged⟩
  case isFalse => exact h.setTv_false

/-- A humidity channel that passes leaves a converted code; one that fails only clears `HV` (R76, R77). -/
theorem takeHumidity (h : s.Inv) (ch : Channel) : (s.takeHumidity ch).Inv := by
  unfold State.takeHumidity
  split
  case isTrue =>
    have hc : (((s.setRh (cvtRh ch.code)).setHrdy true).setHv true).HumidityConverted := ⟨ch.code, rfl⟩
    exact ⟨h.temperature, .inl hc, h.temperatureFlagged, fun _ => hc⟩
  case isFalse => exact h.setHv_false

theorem of_registerEffect {w : CmdWord} {t : State} (h : s.Inv) (he : RegisterEffect w s t) : t.Inv := by
  cases he with
  | frame => exact (h.takeTemperature _).takeHumidity _
  | readTemperature => exact h.setTrdy_false
  | readHumidity => exact h.setHrdy_false
  | keep => exact h

theorem of_runCommand {w : CmdWord} {t : State} (h : s.Inv) (hr : runCommand w s = .next t) : t.Inv := by
  obtain ⟨u, r, he, hu⟩ := runCommand_effect w s
  cases hu.symm.trans hr
  exact (h.of_registerEffect he).emit r

theorem of_runEvent {e : HostEvent} {t : State} (h : s.Inv) (hr : runEvent e s = .next t) : t.Inv := by
  cases e with
  | command w => exact h.of_runCommand hr
  | reset =>
    cases hr
    exact .of_hostReset s

end State.Inv

/-- With nothing waiting, a step holds the state (R104, R120). -/
theorem step_nil {s : State} (h : s.inputs = []) : step s = .next s := by
  simp only [step, nextEvent_nil h, idle]

/-- Settles O52: a step idles, or runs one event in the state without it; each operation keeps the invariant. -/
theorem stepKeepsInvariant : Obligations.StepKeepsInvariant := by
  intro s t h hs
  cases hi : s.inputs with
  | nil =>
    cases (step_nil hi).symm.trans hs
    exact h
  | cons e es => exact (h.setInputs es).of_runEvent ((step_cons hi).symm.trans hs)

/-- `State.reset` is what a reset makes of a block that was never reset (R106). -/
theorem hostReset_eq_reset {s : State} (hr : s.resets = 0) (hi : s.inputs = []) (ho : s.outputs = []) :
    hostReset s = State.reset := by
  simp only [hostReset, State.reset, hr, hi, ho]

/-- Settles O53: `State.reset` is a reset state, and any reset establishes the invariant. -/
theorem resetMeetsInvariant : Obligations.ResetMeetsInvariant := by
  have h : hostReset { State.reset with resets := 0 } = State.reset := hostReset_eq_reset rfl rfl rfl
  unfold Obligations.ResetMeetsInvariant
  rw [← h]
  exact .of_hostReset _

/-- With no flag set the image of RDFLG is zero (R17, R26). -/
theorem flags_hostReset (s : State) : (hostReset s).flags = 0#5 := by
  simp [State.flags, State.ready]

/-- Settles O54: `hostReset` field by field, its flags image, and the first reset. -/
theorem resetState : Obligations.ResetState := by
  refine ⟨fun s => ⟨hostReset s, rfl, rfl, ?_⟩, fun s hr hi ho => congrArg _ (hostReset_eq_reset hr hi ho)⟩
  rw [exec, execRdflg, flags_hostReset]
  rfl

end Sys2Proof.Machine
end

section
/-! The flags and the result registers over every word: who writes them (R14 to R16, R20 to R24), and on what the
responses depend. -/

namespace Sys2Proof.Machine

/-- Settles O46: the effect of the word decides each ready flag; reset clears both. -/
theorem readyFlagLifeCycle : Obligations.ReadyFlagLifeCycle := by
  refine fun s => ⟨fun w => ?_, hostReset s, rfl, rfl, rfl⟩
  obtain ⟨t, r, he, hr⟩ := runCommand_effect w s
  refine ⟨t.emit r, hr, ?_⟩
  cases he with
  | @frame b0 b1 b2 b3 b4 b5 hd => simp [hd, Channel.ok, chk_iff, @eq_comm _ b2, @eq_comm _ b5]
  | readTemperature hd => rcases hd with hd | hd <;> simp [hd]
  | readHumidity hd => simp [hd]
  | keep hk =>
    have hframe : ∀ b0 b1 b2 b3 b4 b5, decode w ≠ .ok (.frame b0 b1 b2 b3 b4 b5) := fun _ _ _ _ _ _ hd => hk _ hd
    have htc : decode w ≠ .ok .rdtc := hk _
    have htf : decode w ≠ .ok .rdtf := hk _
    have hrh : decode w ≠ .ok .rdrh := hk _
    simp [hframe, htc, htf, hrh]

/-- A word is a FRAME, or it keeps the valid flags and the result registers (R20, R21). -/
theorem RegisterEffect.frame_or_keeps {w : CmdWord} {s t : State} (he : RegisterEffect w s t) :
    (∃ b0 b1 b2 b3 b4 b5, decode w = .ok (.frame b0 b1 b2 b3 b4 b5) ∧
      t = (s.takeTemperature ⟨b0, b1, b2⟩).takeHumidity ⟨b3, b4, b5⟩) ∨
    ((∀ b0 b1 b2 b3 b4 b5, decode w ≠ .ok (.frame b0 b1 b2 b3 b4 b5)) ∧
      t.tv = s.tv ∧ t.hv = s.hv ∧ t.tc = s.tc ∧ t.tf = s.tf ∧ t.rh = s.rh) := by
  cases he with
  | frame hd => exact .inl ⟨_, _, _, _, _, _, hd, rfl⟩
  | readTemperature hd =>
    refine .inr ⟨?_, rfl, rfl, rfl, rfl, rfl⟩
    rcases hd with hd | hd <;> simp [hd]
  | readHumidity hd => exact .inr ⟨by simp [hd], rfl, rfl, rfl, rfl, rfl⟩
  | keep hk => exact .inr ⟨fun _ _ _ _ _ _ hd => hk _ hd, rfl, rfl, rfl, rfl, rfl⟩

/-- Settles O47: a FRAME takes both channels, any other word keeps both flags; reset clears both. -/
theorem validFlagLifeCycle : Obligations.ValidFlagLifeCycle := by
  refine fun s => ⟨fun w => ?_, hostReset s, rfl, rfl, rfl⟩
  obtain ⟨t, r, he, hr⟩ := runCommand_effect w s
  refine ⟨t.emit r, hr, ?_⟩
  obtain ⟨b0, b1, b2, b3, b4, b5, hd, rfl⟩ | ⟨hn, htv, hhv, -⟩ := he.frame_or_keeps
  · exact .inl ⟨b0, b1, b2, b3, b4, b5, hd, by simp [Channel.ok], by simp [Channel.ok]⟩
  · exact .inr ⟨hn, htv, hhv⟩

/-- Settles O48: a FRAME writes the registers of each channel that passes, any other word keeps all three. -/
theorem resultRegistersOnlyByFrame : Obligations.ResultRegistersOnlyByFrame := by
  intro w s
  obtain ⟨t, r, he, hr⟩ := runCommand_effect w s
  refine ⟨t.emit r, hr, ?_⟩
  obtain ⟨b0, b1, b2, b3, b4, b5, hd, rfl⟩ | ⟨hn, -, -, htc, htf, hrh⟩ := he.frame_or_keeps
  · refine ⟨fun _ _ _ _ _ _ ha hc => ?temperatureWritten, fun hne => ?temperatureKept,
      fun _ _ _ _ _ _ ha hc => ?humidityWritten, fun hne => ?humidityKept⟩
    case temperatureWritten | humidityWritten =>
      cases hd.symm.trans ha
      simp [Channel.ok, Channel.code, code16, chk, hc]
    case temperatureKept | humidityKept => simp [Channel.ok, chk, hne _ _ _ _ _ _ hd]
  · exact ⟨fun _ _ _ _ _ _ hd => absurd hd (hn _ _ _ _ _ _), fun _ => ⟨htc, htf⟩,
      fun _ _ _ _ _ _ hd => absurd hd (hn _ _ _ _ _ _), fun _ => hrh⟩

/-- Settles O51: a state with the same registers is the other one with its own host's side, which no word reads. -/
theorem noHiddenState : Obligations.NoHiddenState := by
  intro w s s' hs
  obtain ⟨u, r, hu⟩ := runCommand_onHostOf w s
  have hu' : runCommand w s' = .next ((u.onHostOf s').emit r) := hs.eq_onHostOf ▸ hu s'
  exact ⟨(u.onHostOf s).emit r, (u.onHostOf s').emit r, r, hu s, hu',
    ⟨rfl, rfl, rfl, rfl, rfl, rfl, rfl⟩, rfl, rfl, ⟨rfl, rfl⟩, ⟨rfl, rfl⟩⟩

/-- Settles O45: the response of each of the six commands is made from its operands alone. -/
theorem pureCommandsIgnoreState : Obligations.PureCommandsIgnoreState := by
  rintro i (⟨p0, p1, rfl⟩ | ⟨p0, p1, c, rfl⟩ | ⟨code, rfl⟩ | ⟨code, rfl⟩ | ⟨code, rfl⟩ | ⟨p0, p1, c, rfl⟩)
  · exact ⟨_, fun _ => rfl⟩
  · exact ⟨_, fun _ => rfl⟩
  · exact ⟨_, fun _ => rfl⟩
  · exact ⟨_, fun _ => rfl⟩
  · exact ⟨_, fun _ => rfl⟩
  · exact ⟨_, exec_vstat p0 p1 c⟩

end Sys2Proof.Machine
end

section
/-! FRAME forgets: the valid flags before it always, and every register before it when both its channels pass (R26, R76,
R79). -/

namespace Sys2Proof.Machine

/-- FRAME gives its response after all earlier ones (R34). -/
theorem takeBoth_emit_outputs (s : State) (t h : Channel) (r : RspWord) :
    (((s.takeTemperature t).takeHumidity h).emit r).outputs = s.outputs ++ [r] := by simp

/-- Both channels overwrite their valid flags, so their old values do not matter (R21). -/
theorem takeBoth_validFlags (s : State) (t h : Channel) (v w : Bool) :
    (({ s with tv := v, hv := w } : State).takeTemperature t).takeHumidity h = (s.takeTemperature t).takeHumidity h := by
  unfold State.takeTemperature State.takeHumidity
  cases t.ok <;> cases h.ok <;> rfl

/-- Settles O35: the warnings are the failed checks, and the valid flags before the frame are overwritten. -/
theorem frameWarnings : Obligations.FrameWarnings := by
  intro b0 b1 b2 b3 b4 b5 s
  refine ⟨_, _, exec_frame .., takeBoth_emit_outputs .., rspWt_responseWord .., rspWh_responseWord ..,
    rspWs_responseWord .., rspIll_responseWord .., by simp [Channel.ok], by simp [Channel.ok], fun v w => ?_⟩
  rw [exec_frame, takeBoth_validFlags]

/-- The flags image is a function of the registers (R17). -/
theorem SameRegisters.flags_eq {s t : State} (h : SameRegisters s t) : t.flags = s.flags := by
  obtain ⟨-, -, -, htv, hhv, htrdy, hhrdy⟩ := h
  exact State.flags_congr htv hhv htrdy hhrdy

/-- Two channels that pass write all seven registers (R76). -/
theorem takeBoth_sameRegisters {t h : Channel} (ht : t.ok = true) (hh : h.ok = true) (s s' : State) :
    SameRegisters ((s.takeTemperature t).takeHumidity h) ((s'.takeTemperature t).takeHumidity h) := by
  simp [SameRegisters, ht, hh]

/-- Settles O38: after a good frame both states have the same registers, so the same flags image is answered. -/
theorem goodFrameForgetsOldState : Obligations.GoodFrameForgetsOldState := by
  intro b0 b1 b2 b3 b4 b5 s s' ht hh
  have hr := takeBoth_sameRegisters (t := ⟨b0, b1, b2⟩) (h := ⟨b3, b4, b5⟩) ht hh s s'
  refine ⟨_, _, _, exec_frame b0 b1 b2 b3 b4 b5 s, exec_frame b0 b1 b2 b3 b4 b5 s', hr,
    takeBoth_emit_outputs .., ?_⟩
  rw [takeBoth_emit_outputs, hr.flags_eq]

end Sys2Proof.Machine
end

section
/-! The Fahrenheit result beside the Celsius result of the same code (R23, R72). -/

namespace Sys2Proof.Machine

/-- The Celsius result as an integer: the scaled code, never wrapped (R63, R70). -/
theorem toInt_cvtTc (code : Code) : (cvtTc code).toInt = -45000 + scaled 350000 code := by
  have hs := scaled_spec 350000 code
  have hc := code.isLt
  exact toInt_toS20 (by omega) (by omega)

/-- The Fahrenheit result as an integer (R64, R70). -/
theorem toInt_cvtTf (code : Code) : (cvtTf code).toInt = -49000 + scaled 630000 code := by
  have hs := scaled_spec 630000 code
  have hc := code.isLt
  exact toInt_toS20 (by omega) (by omega)

/-- Settles O32: both scaled codes are quotients of the same code, each rounded once. -/
theorem fahrenheitNotRescaledCelsius : Obligations.FahrenheitNotRescaledCelsius := by
  refine ⟨fun code => ?_, by decide, by decide, by decide⟩
  have htc := scaled_spec 350000 code
  have htf := scaled_spec 630000 code
  simp only [toInt_cvtTc, toInt_cvtTf]
  omega

end Sys2Proof.Machine
end

section
/-! A run takes the host's events from the front, one a step, and gives one response per command (R34, R109). -/

namespace Sys2Proof.Machine

/-- A run goes on from where its first step ends. -/
theorem run_succ {s t : State} (h : step s = .next t) (n : Nat) :
    Host.Core.run core (n + 1) s = Host.Core.run core n t := by
  have hc : core.step s = .next t := h
  simp only [Host.Core.run, hc]

/-- With an event waiting, a run starts with that event. -/
theorem run_cons {s t : State} {e : HostEvent} {es : List HostEvent} (h : s.inputs = e :: es)
    (he : runEvent e (s.setInputs es) = .next t) (n : Nat) :
    Host.Core.run core (n + 1) s = Host.Core.run core n t :=
  run_succ ((step_cons h).trans he) n

/-- An event answers as often as it is a command, and leaves alone what the host will do (R34, R105). -/
theorem runEvent_answers (e : HostEvent) (s : State) :
    ∃ t rs, runEvent e s = .next t ∧ t.inputs = s.inputs ∧ t.outputs = s.outputs ++ rs ∧
      rs.length = commandCount [e] := by
  cases e with
  | command w =>
    obtain ⟨u, r, hr, ho, hi, -⟩ := runCommand_emits w s
    exact ⟨u.emit r, [r], hr, hi, congrArg (· ++ [r]) ho, rfl⟩
  | reset => exact ⟨hostReset s, [], rfl, rfl, (List.append_nil _).symm, rfl⟩

/-- The responses owed for an event and those after it add up. -/
theorem commandCount_cons (e : HostEvent) (es : List HostEvent) :
    commandCount (e :: es) = commandCount [e] + commandCount es := by
  unfold commandCount
  rw [← List.length_append, ← List.filter_append]
  rfl

/-- As many steps as there are events run them all, with one response per command. -/
theorem run_answers (es : List HostEvent) (s : State) (h : s.inputs = es) :
    ∃ u rs, Host.Core.run core es.length s = .next u ∧ u.inputs = [] ∧ u.outputs = s.outputs ++ rs ∧
      rs.length = commandCount es := by
  induction es generalizing s with
  | nil => exact ⟨s, [], rfl, h, (List.append_nil _).symm, rfl⟩
  | cons e es ih =>
    obtain ⟨t, rs, ht, hti, hto, hrs⟩ := runEvent_answers e (s.setInputs es)
    obtain ⟨u, qs, hu, hui, huo, hqs⟩ := ih t hti
    refine ⟨u, rs ++ qs, (run_cons h ht es.length).trans hu, hui, ?_, ?_⟩
    · rw [huo, hto, State.setInputs_outputs, List.append_assoc]
    · rw [List.length_append, hrs, hqs, ← commandCount_cons]

/-- Settles O12: the first step runs the first event, and the run answers each command once. -/
theorem runAnswersInOrder : Obligations.RunAnswersInOrder := by
  intro s e es h
  obtain ⟨t, -, ht, hti, -⟩ := runEvent_answers e (s.setInputs es)
  exact ⟨⟨t, ht, hti, run_cons h ht es.length⟩, run_answers (e :: es) s h⟩

end Sys2Proof.Machine
end

section
/-! The same FRAME again: its channels write what they wrote before (R36, R83). -/

namespace Sys2Proof.Machine

/-- Taking the channels and giving a response do not disturb each other. -/
theorem takeBoth_emit (s : State) (t h : Channel) (r : RspWord) :
    ((s.emit r).takeTemperature t).takeHumidity h = ((s.takeTemperature t).takeHumidity h).emit r := by
  unfold State.takeTemperature State.takeHumidity
  cases t.ok <;> cases h.ok <;> rfl

/-- Both channels taken a second time write the registers with what stands in them. -/
theorem takeBoth_takeBoth (s : State) (t h : Channel) :
    (((s.takeTemperature t).takeHumidity h).takeTemperature t).takeHumidity h =
      (s.takeTemperature t).takeHumidity h := by
  unfold State.takeTemperature State.takeHumidity
  cases t.ok <;> cases h.ok <;> rfl

/-- Two responses given stand in the list in that order (R34). -/
theorem State.emit_emit (s : State) (r q : RspWord) :
    (s.emit r).emit q = { s.emit r with outputs := s.outputs ++ [r, q] } := by
  simp [State.emit]

/-- Settles O36: the second FRAME writes what the first wrote, so it answers with the same flags image. -/
theorem frameIdempotent : Obligations.FrameIdempotent := by
  intro b0 b1 b2 b3 b4 b5 s
  refine ⟨_, _, _, exec_frame b0 b1 b2 b3 b4 b5 s, exec_frame .., takeBoth_emit_outputs .., ?_⟩
  rw [takeBoth_emit, takeBoth_takeBoth, State.emit_flags, State.emit_emit]
  simp only [State.takeHumidity_outputs, State.takeTemperature_outputs]

end Sys2Proof.Machine
end

section
/-! The host procedure `sample()` (R90): what each command it issues answers, and its three courses. -/

namespace Sys2Proof

/-- The bytes of an F48 word (R41). -/
theorem byteOf_bytes6 (op : BitVec 4) (b0 b1 b2 b3 b4 b5 : Byte) :
    byteOf 5 (op ++ b0 ++ b1 ++ b2 ++ b3 ++ b4 ++ b5) = b0 ∧ byteOf 4 (op ++ b0 ++ b1 ++ b2 ++ b3 ++ b4 ++ b5) = b1 ∧
    byteOf 3 (op ++ b0 ++ b1 ++ b2 ++ b3 ++ b4 ++ b5) = b2 ∧ byteOf 2 (op ++ b0 ++ b1 ++ b2 ++ b3 ++ b4 ++ b5) = b3 ∧
    byteOf 1 (op ++ b0 ++ b1 ++ b2 ++ b3 ++ b4 ++ b5) = b4 ∧ byteOf 0 (op ++ b0 ++ b1 ++ b2 ++ b3 ++ b4 ++ b5) = b5 := by
  refine ⟨?_, ?_, ?_, ?_, ?_, ?_⟩ <;>
    · apply BitVec.eq_of_getLsbD_eq
      intro j hj
      rw [byteOf, BitVec.getLsbD_extractLsb', BitVec.getLsbD_eq_getElem (by omega)]
      grind

/-- The decoder reads a FRAME back with its six bytes (R44). -/
theorem decode_encode_frame (b0 b1 b2 b3 b4 b5 : Byte) :
    decode (encode (.frame b0 b1 b2 b3 b4 b5)) = .ok (.frame b0 b1 b2 b3 b4 b5) := by
  have ho : opOf (encode (.frame b0 b1 b2 b3 b4 b5)) = 0x6#4 := opOf_bytes6 0x6#4 b0 b1 b2 b3 b4 b5
  obtain ⟨h0, h1, h2, h3, h4, h5⟩ := byteOf_bytes6 0x6#4 b0 b1 b2 b3 b4 b5
  simp only [decode, ho]
  simp [encode, h0, h1, h2, h3, h4, h5]

namespace Machine

/-- A command issued is answered by its response. -/
theorem issue_eq {i : Instr} {s t : State} {r : RspWord} (hd : decode (encode i) = .ok i)
    (he : exec i s = .next (t.emit r)) : issue i s = some (r, t.emit r) := by
  simp [issue, runCommand_ok hd, he]

/-- `READY` is both ready flags (R18). -/
theorem State.ready_iff (s : State) : s.ready = true ↔ s.trdy = true ∧ s.hrdy = true := by
  simp [State.ready]

/-- What RDFLG answers: the flags image, with no event (R87). -/
def State.flagsAnswer (s : State) : RspWord := responseWord false false false false (zext20 s.flags)

/-- The answer of RDFLG bit by bit (R17, R18). -/
theorem State.flagsAnswer_eq (s : State) : s.flagsAnswer =
    0#19 ++ BitVec.ofBool (s.trdy && s.hrdy) ++ BitVec.ofBool s.hrdy ++ BitVec.ofBool s.trdy ++ BitVec.ofBool s.hv ++
      BitVec.ofBool s.tv := by
  have hbits : ∀ ready hrdy trdy hv tv : Bool,
      responseWord false false false false (zext20 (BitVec.ofBool ready ++ BitVec.ofBool hrdy ++ BitVec.ofBool trdy ++
        BitVec.ofBool hv ++ BitVec.ofBool tv)) =
      0#19 ++ BitVec.ofBool ready ++ BitVec.ofBool hrdy ++ BitVec.ofBool trdy ++ BitVec.ofBool hv ++
        BitVec.ofBool tv := by decide
  exact hbits ..

/-- `DOUT[4]` of a response that carries the flags image is `READY` (R17, R90). -/
theorem rspReady_flags (ill ws wh wt : Bool) (s : State) :
    rspReady (responseWord ill ws wh wt (zext20 s.flags)) = s.ready := by
  have hf : s.flags[4] = s.ready := by
    simp only [State.flags]
    grind
  rw [rspReady, getLsbD_responseWord, zext20]
  simp [hf]

/-- RDFLG issued (R87). -/
theorem issue_rdflg (s : State) : issue .rdflg s = some (s.flagsAnswer, s.emit s.flagsAnswer) :=
  issue_eq (by decide) rfl

/-- RDRH issued (R86). -/
theorem issue_rdrh (s : State) :
    issue .rdrh s = some (responseWord false false false false s.rh,
      (s.setHrdy false).emit (responseWord false false false false s.rh)) :=
  issue_eq (by decide) rfl

/-- The register that the read command of a unit answers (R84, R85). -/
def TempUnit.value : TempUnit → State → Milli
  | .celsius, s => s.tc
  | .fahrenheit, s => s.tf

/-- The read command of a unit issued (R84, R85). -/
theorem issue_readCommand (u : TempUnit) (s : State) :
    issue u.readCommand s = some (responseWord false false false false (u.value s),
      (s.setTrdy false).emit (responseWord false false false false (u.value s))) := by
  cases u with
  | celsius => exact issue_eq (by decide) rfl
  | fahrenheit => exact issue_eq (by decide) rfl

/-- A response given is nothing that a temperature read looks at. -/
theorem TempUnit.value_emit (u : TempUnit) (s : State) (r : RspWord) : u.value (s.emit r) = u.value s := by
  cases u <;> rfl

/-- Both reads, after the response `q`, answer the two values and clear both ready flags (R84 to R86, R90). -/
theorem readBoth_emit (u : TempUnit) (s : State) (q : RspWord) :
    readBoth u (s.emit q) = some ((u.value s, s.rh),
      { s with
        trdy := false
        hrdy := false
        outputs := s.outputs ++ [q, 0#4 ++ u.value s, 0#4 ++ s.rh] }) := by
  simp only [readBoth, issue_readCommand, issue_rdrh, rspDout_responseWord, TempUnit.value_emit]
  simp [responseWord_quiet, State.emit, State.setTrdy, State.setHrdy]

/-- With both ready flags set `sample()` issues RDFLG and the two reads (R90). -/
theorem sample_of_ready {s : State} (hs : s.ready = true) (u : TempUnit) (t h : Channel) :
    sample u t h s = some (some (u.value s, s.rh),
      { s with
        trdy := false
        hrdy := false
        outputs := s.outputs ++ [s.flagsAnswer, 0#4 ++ u.value s, 0#4 ++ s.rh] }) := by
  have hr : rspReady s.flagsAnswer = true := (rspReady_flags ..).trans hs
  simp [sample, issue_rdflg, hr, readBoth_emit]

/-- Else it issues RDFLG and goes on to the bus read (R90). -/
theorem sample_of_not_ready {s : State} (hs : ¬ s.ready = true) (u : TempUnit) (t h : Channel) :
    sample u t h s = fetchThenRead u t h (s.emit s.flagsAnswer) := by
  have hr : ¬ rspReady s.flagsAnswer = true := (rspReady_flags ..).trans_ne hs
  simp only [sample, issue_rdflg, if_neg hr]

/-- The answer of a FRAME with the channels `t` and `h` in the state `s`: the warnings and the flags image after the
writes (R76, R79). -/
def frameAnswer (t h : Channel) (s : State) : RspWord :=
  responseWord false false (!h.ok) (!t.ok) (zext20 ((s.takeTemperature t).takeHumidity h).flags)

/-- FRAME issued after the response `q` (R76). -/
theorem issue_frame_emit (t h : Channel) (s : State) (q : RspWord) :
    issue (.frame t.p0 t.p1 t.c h.p0 h.p1 h.c) (s.emit q) =
      some (frameAnswer t h s, (((s.takeTemperature t).takeHumidity h).emit q).emit (frameAnswer t h s)) := by
  refine issue_eq (decode_encode_frame ..) ?_
  rw [exec_frame, takeBoth_emit]
  rfl

/-- Settles O55: RDFLG answers `READY`, and so does the one FRAME issued when it is not set. -/
theorem sampleProcedure : Obligations.SampleProcedure := by
  intro u t h s temperature flagsAnswer
  have ht : temperature = u.value := by cases u <;> rfl
  have hf : flagsAnswer = s.flagsAnswer := s.flagsAnswer_eq.symm
  rw [ht, hf, ← State.ready_iff]
  refine ⟨fun hs => sample_of_ready hs u t h, fun hs => ?_⟩
  refine ⟨_, frameAnswer t h s, exec_frame .., takeBoth_emit_outputs .., ?_⟩
  rw [← State.ready_iff, sample_of_not_ready hs, fetchThenRead, issue_frame_emit]
  refine ⟨fun hr => ?_, fun hr => ?_⟩
  · have hr : rspReady (frameAnswer t h s) = true := (rspReady_flags ..).trans hr
    simp [hr, readBoth_emit, TempUnit.value_emit]
  · have hr : ¬ rspReady (frameAnswer t h s) = true := (rspReady_flags ..).trans_ne hr
    simp [hr, State.emit]

end Machine
end Sys2Proof
end

section
/-! The clocked port against the order of commands (R34, R39, R107, R109, R113). -/

namespace Sys2Proof.Machine

/-- The response cycle of a command that ends in `u`: its writes and its response together (R33, R39). -/
theorem Port.finish_eq {p : Port} {w : CmdWord} {u : State} (h : runCommand w p.block = .next u) :
    p.finish w =
      .next (⟨u, .idle, p.cycle + 1⟩, ⟨false, true, u.outputs.getLastD (Config.idleRsp p.cycle)⟩) := by
  simp only [Port.finish, h]

/-- Settles O58: a cycle under way is a waiting cycle or the response cycle, and neither looks at the command port. -/
theorem busyPortIgnoresCommands : Obligations.BusyPortIgnoresCommands := by
  intro p w n v c hp
  cases n with
  | zero =>
    obtain ⟨u, r, hr, -⟩ := runCommand_emits w p.block
    have hfinish : ∀ i : PortIn, i.rst = false → p.tick i = _ :=
      fun i hi => (Port.tick_finish hi hp).trans (Port.finish_eq hr)
    exact ⟨_, _, hfinish _ rfl, hfinish _ rfl, rfl, by simp, by simp⟩
  | succ n =>
    have hwait : ∀ i : PortIn, i.rst = false → p.tick i = _ := fun i hi => Port.tick_busy hi hp
    exact ⟨_, _, hwait _ rfl, hwait _ rfl, rfl, fun _ => ⟨n, rfl, n.lt_succ_self, rfl⟩, by simp⟩

/-- What a word does to a state does not depend on what the host will do next (R24, R27). -/
theorem runCommand_setInputs {w : CmdWord} {s t : State} (h : runCommand w s = .next t) (es : List HostEvent) :
    runCommand w (s.setInputs es) = .next (t.setInputs es) := by
  obtain ⟨u, r, hu⟩ := runCommand_onHostOf w s
  cases (hu s).symm.trans h
  exact hu (s.setInputs es)

/-- A word leaves what the host will do as it was (R34). -/
theorem runCommand_inputs {w : CmdWord} {s t : State} (h : runCommand w s = .next t) : t.inputs = s.inputs := by
  obtain ⟨u, r, hu, -, hi, -⟩ := runCommand_emits w s
  cases hu.symm.trans h
  exact hi

section Observer

variable {i : PortIn} {o : PortOut} {pending : Option CmdWord} (rest : List (PortIn × PortOut))

/-- The observer sees a reset in a cycle with `rst = 1` (R107). -/
theorem transcript_reset (hi : i.rst = true) : transcript pending ((i, o) :: rest) = .reset :: transcript none rest := by
  simp [transcript, hi]

/-- The observer sees the command accepted last in the cycle of its response (R39). -/
theorem transcript_answer {w : CmdWord} (hi : i.rst = false) (ho : o.rspValid = true) :
    transcript (some w) ((i, o) :: rest) = .command w :: transcript none rest := by
  simp [transcript, hi, ho]

/-- In any other cycle the observer at most sees a command accepted (R39). -/
theorem transcript_quiet (hi : i.rst = false) (ho : o.rspValid = false) :
    transcript pending ((i, o) :: rest) =
      transcript (if i.cmdValid && o.cmdReady then some i.cmd else pending) rest := by
  cases ha : i.cmdValid && o.cmdReady <;> simp [transcript, hi, ho, ha]

end Observer

/-- A response is captured in its cycle (R39). -/
theorem captured_answer {o : PortOut} (ho : o.rspValid = true) (os : List PortOut) :
    captured (o :: os) = o.rsp :: captured os := by
  simp [captured, ho]

/-- In a cycle without a response none is captured. -/
theorem captured_quiet {o : PortOut} (ho : o.rspValid = false) (os : List PortOut) :
    captured (o :: os) = captured os := by
  simp [captured, ho]

/-- Giving a state the events it has already changes nothing. -/
theorem State.setInputs_of_inputs {s : State} {es : List HostEvent} (h : s.inputs = es) : s.setInputs es = s := by
  subst h
  rfl

/-- The block steps through the events `es`, given to it as all the host will do, and ends in `t`. -/
def RunsTo (s : State) (es : List HostEvent) (t : State) : Prop :=
  Host.Core.run core es.length (s.setInputs es) = .next t

/-- With no event the block stays where it is (R104). -/
theorem RunsTo.nil {s : State} (h : s.inputs = []) : RunsTo s [] s :=
  congrArg Host.Outcome.next (State.setInputs_of_inputs h)

/-- A reset first, then the other events (R105). -/
theorem RunsTo.reset {s t : State} {es : List HostEvent} (h : RunsTo (hostReset s) es t) :
    RunsTo s (.reset :: es) t :=
  (run_cons (s := s.setInputs (.reset :: es)) rfl rfl es.length).trans h

/-- A command first, then the other events (R34). -/
theorem RunsTo.command {w : CmdWord} {s u t : State} {es : List HostEvent} (hw : runCommand w s = .next u)
    (h : RunsTo u es t) : RunsTo s (.command w :: es) t := by
  have he : runEvent (.command w) (s.setInputs es) = .next (u.setInputs es) := runCommand_setInputs hw es
  exact (run_cons (s := s.setInputs (.command w :: es)) rfl he es.length).trans h

/-- One cycle refines the run: the events seen in it lead the block from where it was to where the cycle leaves it, and
the response captured in it is theirs. A reset cycle is a step of the run, a response cycle is one, any other is none. -/
theorem Port.tick_refines (p : Port) (i : PortIn) (h : p.phase ≠ .unreset) :
    ∃ p' o, p.tick i = .next (p', o) ∧ p'.phase ≠ .unreset ∧ p'.block.inputs = p.block.inputs ∧
      (∀ rest t, RunsTo p'.block (transcript p'.phase.pending rest) t →
        RunsTo p.block (transcript p.phase.pending ((i, o) :: rest)) t) ∧
      ∀ os, p'.block.outputs ++ captured os = p.block.outputs ++ captured (o :: os) := by
  obtain ⟨p', o, ht, hp', hcases⟩ := p.tick_cases i h
  refine ⟨p', o, ht, hp', ?_⟩
  obtain ⟨hi, ho, hblock, hpend⟩ | ⟨hi, ho, w, hpend, hw, hout, hidle⟩ | ⟨hi, ho, hblock, hpend⟩ := hcases
  case inl =>
    rw [hblock, hpend]
    refine ⟨rfl, fun rest t hto => ?_, fun os => by rw [captured_quiet ho, hostReset_outputs]⟩
    rw [transcript_reset rest hi]
    exact hto.reset
  case inr.inl =>
    have hnone : p'.phase.pending = none := by rw [hidle]; rfl
    rw [hnone, hpend]
    refine ⟨runCommand_inputs hw, fun rest t hto => ?_, fun os => by simp [captured_answer ho, hout]⟩
    rw [transcript_answer rest hi ho]
    exact hto.command hw
  case inr.inr =>
    rw [hblock, hpend]
    refine ⟨rfl, fun rest t hto => ?_, fun os => by rw [captured_quiet ho]⟩
    rw [transcript_quiet rest hi ho]
    exact hto

/-- Settles O56, by induction on the cycles: each of them refines its part of the run. -/
theorem portRefinesCommandRun : Obligations.PortRefinesCommandRun := by
  intro p is hp hb
  induction is generalizing p with
  | nil => exact ⟨p, [], rfl, rfl, RunsTo.nil hb, (List.append_nil _).symm⟩
  | cons i is ih =>
    obtain ⟨p', o, ht, hp', hinputs, hto, hout⟩ := p.tick_refines i hp
    obtain ⟨q, os, hrun, hlen, hto', hout'⟩ := ih p' hp' (hinputs.trans hb)
    exact ⟨q, o :: os, Port.run_cons ht hrun, congrArg (· + 1) hlen, hto (is.zip os) q.block hto',
      hout'.trans (hout os)⟩

end Sys2Proof.Machine
end

section
/-! The encoder and the decoder against each other: a word laid out by a format of R41 against its fields, and the two round
trips (R40, R41, R43, R44). -/

namespace Sys2Proof

/-- A format whose must-be-zero bits are zero accepts (R46). -/
@[simp] theorem ifZero_zero (n : Nat) (w : CmdWord) (i : Instr) : ifZero 0#n w i = .ok i :=
  ifZero_eq_ok.mpr ⟨rfl, rfl⟩

section Fields

variable {w : CmdWord} {op : BitVec 4}

/-- A P16 word with a code, by its fields (R40, R41, R43). -/
theorem p16_code_iff {code : Code} :
    op ++ 0#32 ++ code = w ↔ opOf w = op ∧ mbzP16 w = 0#32 ∧ codeOf w = code := by
  constructor
  · rintro rfl
    exact ⟨opOf_code op code, mbzP16_code op code, BitVec.extractLsb'_append_eq_right⟩
  · rintro ⟨rfl, hz, rfl⟩
    rw [← hz]
    apply BitVec.eq_of_getLsbD_eq
    intro j hj
    simp only [opOf, mbzP16, codeOf, BitVec.getLsbD_append, BitVec.getLsbD_extractLsb']
    grind

/-- A P16 word with two bytes, by its fields (R40, R41). -/
theorem p16_bytes_iff {p0 p1 : Byte} :
    op ++ 0#32 ++ p0 ++ p1 = w ↔ opOf w = op ∧ mbzP16 w = 0#32 ∧ byteOf 1 w = p0 ∧ byteOf 0 w = p1 := by
  constructor
  · rintro rfl
    refine ⟨opOf_bytes2 op p0 p1, mbzP16_bytes2 op p0 p1, ?_, BitVec.extractLsb'_append_eq_right⟩
    rw [byteOf, BitVec.extractLsb'_append_eq_of_le (by decide)]
    exact BitVec.extractLsb'_append_eq_right
  · rintro ⟨rfl, hz, rfl, rfl⟩
    rw [← hz]
    apply BitVec.eq_of_getLsbD_eq
    intro j hj
    simp only [opOf, mbzP16, byteOf, BitVec.getLsbD_append, BitVec.getLsbD_extractLsb']
    grind

/-- A P24 word, by its fields (R40, R41). -/
theorem p24_iff {p0 p1 c : Byte} :
    op ++ 0#24 ++ p0 ++ p1 ++ c = w ↔
      opOf w = op ∧ mbzP24 w = 0#24 ∧ byteOf 2 w = p0 ∧ byteOf 1 w = p1 ∧ byteOf 0 w = c := by
  constructor
  · rintro rfl
    refine ⟨opOf_bytes3 op p0 p1 c, mbzP24_bytes3 op p0 p1 c, ?_, ?_, BitVec.extractLsb'_append_eq_right⟩
    · rw [byteOf, BitVec.extractLsb'_append_eq_of_le (by decide), BitVec.extractLsb'_append_eq_of_le (by decide)]
      exact BitVec.extractLsb'_append_eq_right
    · rw [byteOf, BitVec.extractLsb'_append_eq_of_le (by decide)]
      exact BitVec.extractLsb'_append_eq_right
  · rintro ⟨rfl, hz, rfl, rfl, rfl⟩
    rw [← hz]
    apply BitVec.eq_of_getLsbD_eq
    intro j hj
    simp only [opOf, mbzP24, byteOf, BitVec.getLsbD_append, BitVec.getLsbD_extractLsb']
    grind

/-- A word is the F48 word of its own bytes (R40, R41). -/
theorem f48_of_opOf (ho : opOf w = op) :
    op ++ byteOf 5 w ++ byteOf 4 w ++ byteOf 3 w ++ byteOf 2 w ++ byteOf 1 w ++ byteOf 0 w = w := by
  rw [← ho]
  apply BitVec.eq_of_getLsbD_eq
  intro j hj
  simp only [opOf, byteOf, BitVec.getLsbD_append, BitVec.getLsbD_extractLsb']
  grind

/-- A word whose data field is zero is its opcode over zeros (R40, R41). -/
theorem n_of_dataOf (ho : opOf w = op) (hz : dataOf w = 0#48) : op ++ 0#48 = w := by
  rw [← ho, ← hz, opOf_append_dataOf]

end Fields

/-- Settles O1: the fields of the encoder's word are the command's opcode, zeros in its must-be-zero bits, and the
operands. -/
theorem decodeOfEncode : Obligations.DecodeOfEncode := by
  intro i
  cases i with
  | crc8 p0 p1 =>
    generalize hw : encode _ = w
    obtain ⟨ho, hz, hp0, hp1⟩ := p16_bytes_iff.mp hw
    simp [decode, ho, hz, hp0, hp1]
  | verify p0 p1 c | vstat p0 p1 c =>
    generalize hw : encode _ = w
    obtain ⟨ho, hz, hp0, hp1, hc⟩ := p24_iff.mp hw
    simp [decode, ho, hz, hp0, hp1, hc]
  | cvtc code | cvtf code | cvrh code =>
    generalize hw : encode _ = w
    obtain ⟨ho, hz, hc⟩ := p16_code_iff.mp hw
    simp [decode, ho, hz, hc]
  | frame b0 b1 b2 b3 b4 b5 => exact decode_encode_frame b0 b1 b2 b3 b4 b5
  | rdtc | rdtf | rdrh | rdflg => decide

/-- Settles O2: an accepted word has the command's opcode and zeros in its must-be-zero bits, and the fields of its
format are the whole word. -/
theorem encodeOfDecode : Obligations.EncodeOfDecode := by
  intro w i h
  have hc := decode_cases w
  simp only [h, Except.ok.injEq] at hc
  obtain ⟨ho, hz, rfl⟩ | ⟨ho, hz, rfl⟩ | ⟨ho, hz, rfl⟩ | ⟨ho, hz, rfl⟩ | ⟨ho, hz, rfl⟩ | ⟨ho, rfl⟩ | ⟨ho, hz, rfl⟩ |
    ⟨ho, hz, rfl⟩ | ⟨ho, hz, rfl⟩ | ⟨ho, hz, rfl⟩ | ⟨ho, hz, rfl⟩ | ⟨-, e, he⟩ := hc
  · exact p16_bytes_iff.mpr ⟨ho, hz, rfl, rfl⟩
  · exact p24_iff.mpr ⟨ho, hz, rfl, rfl, rfl⟩
  · exact p16_code_iff.mpr ⟨ho, hz, rfl⟩
  · exact p16_code_iff.mpr ⟨ho, hz, rfl⟩
  · exact p16_code_iff.mpr ⟨ho, hz, rfl⟩
  · exact f48_of_opOf ho
  · exact p24_iff.mpr ⟨ho, hz, rfl, rfl, rfl⟩
  · exact n_of_dataOf ho hz
  · exact n_of_dataOf ho hz
  · exact n_of_dataOf ho hz
  · exact n_of_dataOf ho hz
  · cases he

end Sys2Proof
end

section
/-! The opcode table's verdict on every word against the decoder's (R44 to R47). -/

namespace Sys2Proof

/-- The rows that select the encoder's word are one, named as the command is (R44). -/
theorem rowsOf_encode (i : Instr) : (rowsOf (encode i)).map (·.mnemonic) = [mnemonicOf i] := by
  cases i with
  | crc8 p0 p1 => exact Laws.EncodeLegal.crc8 p0 p1
  | verify p0 p1 c => exact Laws.EncodeLegal.verify p0 p1 c
  | cvtc code => exact Laws.EncodeLegal.cvtc code
  | cvtf code => exact Laws.EncodeLegal.cvtf code
  | cvrh code => exact Laws.EncodeLegal.cvrh code
  | frame b0 b1 b2 b3 b4 b5 => exact Laws.EncodeLegal.frame b0 b1 b2 b3 b4 b5
  | vstat p0 p1 c => exact Laws.EncodeLegal.vstat p0 p1 c
  | rdtc => exact Laws.EncodeLegal.rdtc
  | rdtf => exact Laws.EncodeLegal.rdtf
  | rdrh => exact Laws.EncodeLegal.rdrh
  | rdflg => exact Laws.EncodeLegal.rdflg

/-- One row selects a word that decodes, and it is named as the command is (R47). -/
theorem rowsOf_of_decode_ok {w : CmdWord} {i : Instr} (h : decode w = .ok i) :
    ∃ r, rowsOf w = [r] ∧ mnemonicOf i = r.mnemonic := by
  have hr := rowsOf_encode i
  rw [encodeOfDecode w i h, List.map_eq_singleton_iff] at hr
  obtain ⟨r, hr, hm⟩ := hr
  exact ⟨r, hr, hm.symm⟩

/-- No row selects a word that does not decode (R47). -/
theorem rowsOf_of_decode_error {w : CmdWord} {e : DecodeError} (h : decode w = .error e) : rowsOf w = [] := by
  simpa [h] using decode_cases w

/-- The words of the table are those the decoder accepts (R47). -/
theorem legalWord_iff_decode (w : CmdWord) : legalWord w = true ↔ ∃ i, decode w = .ok i := by
  cases h : decode w with
  | error e => simp [legalWord, rowsOf_of_decode_error h]
  | ok i =>
    obtain ⟨r, hr, -⟩ := rowsOf_of_decode_ok h
    simp [legalWord, hr]

namespace Machine

/-- A word that does not decode is only answered 0x800000 (R93). -/
theorem runCommand_illegal {w : CmdWord} {e : DecodeError} (h : decode w = .error e) (s : State) :
    runCommand w s = .next { s with outputs := s.outputs ++ [0x800000#24] } := by
  rw [runCommand_error h, illegalCommand_eq, responseWord_illegal]
  rfl

/-- Settles O3: a word that decodes is selected by the one row of its command, any other word by none. -/
theorem decodeFollowsTable : Obligations.DecodeFollowsTable := by
  intro w s
  cases h : decode w with
  | ok i =>
    obtain ⟨r, hr, hm⟩ := rowsOf_of_decode_ok h
    rw [hr]
    exact ⟨i, rfl, hm, runCommand_ok h s⟩
  | error e =>
    rw [rowsOf_of_decode_error h]
    exact runCommand_illegal h s

end Machine

/-- A reserved opcode is an error by that name (R45). -/
theorem decode_reserved {w : CmdWord} (h : opOf w ∈ [0x0#4, 0xC#4, 0xD#4, 0xE#4, 0xF#4]) :
    decode w = .error (.reservedOpcode (opOf w)) := by
  simp only [List.mem_cons, List.not_mem_nil, or_false] at h
  rcases h with h | h | h | h | h <;> simp [decode, h]

/-- Settles O4: the decoder refuses a reserved opcode, and so does the table. -/
theorem reservedOpcodesIllegal : Obligations.ReservedOpcodesIllegal := by
  intro op data s h
  have hd : decode (op ++ data) = .error (.reservedOpcode op) := by
    simpa only [opOf_append] using decode_reserved (w := op ++ data) (by rwa [opOf_append])
  exact ⟨hd, by rw [legalWord, rowsOf_of_decode_error hd]; rfl, Machine.runCommand_illegal hd s⟩

/-- The must-be-zero bits of format P16 as bits of the data field (R41). -/
theorem mbzP16_append (op : BitVec 4) (data : BitVec 48) : mbzP16 (op ++ data) = data.extractLsb' 16 32 :=
  BitVec.extractLsb'_append_eq_of_add_le (by decide)

/-- The must-be-zero bits of format P24 as bits of the data field (R41). -/
theorem mbzP24_append (op : BitVec 4) (data : BitVec 48) : mbzP24 (op ++ data) = data.extractLsb' 24 24 :=
  BitVec.extractLsb'_append_eq_of_add_le (by decide)

/-- With an opcode of format P16 a word is legal exactly if the format's must-be-zero bits are zero (R46). -/
theorem legalWord_p16 {w : CmdWord} (h : opOf w ∈ [0x1#4, 0x3#4, 0x4#4, 0x5#4]) :
    legalWord w = true ↔ mbzP16 w = 0#32 := by
  rw [legalWord_iff_decode]
  simp only [List.mem_cons, List.not_mem_nil, or_false] at h
  rcases h with h | h | h | h <;> simp [decode, h, ifZero_eq_ok]

/-- With an opcode of format P24 a word is legal exactly if the format's must-be-zero bits are zero (R46). -/
theorem legalWord_p24 {w : CmdWord} (h : opOf w ∈ [0x2#4, 0x7#4]) : legalWord w = true ↔ mbzP24 w = 0#24 := by
  rw [legalWord_iff_decode]
  simp only [List.mem_cons, List.not_mem_nil, or_false] at h
  rcases h with h | h <;> simp [decode, h, ifZero_eq_ok]

/-- With an opcode of format N a word is legal exactly if its data field is zero (R46). -/
theorem legalWord_n {w : CmdWord} (h : opOf w ∈ [0x8#4, 0x9#4, 0xA#4, 0xB#4]) :
    legalWord w = true ↔ dataOf w = 0#48 := by
  rw [legalWord_iff_decode]
  simp only [List.mem_cons, List.not_mem_nil, or_false] at h
  rcases h with h | h | h | h <;> simp [decode, h, ifZero_eq_ok]

/-- With the opcode of format F48, which has no must-be-zero bits, every word is legal (R41). -/
theorem legalWord_f48 {w : CmdWord} (h : opOf w = 0x6#4) : legalWord w = true := by
  simp [legalWord_iff_decode, decode, h]

theorem encode_injective : Function.Injective encode := fun i j h => by
  have hd := decodeOfEncode i
  rw [h, decodeOfEncode j] at hd
  exact (Except.ok.inj hd).symm

/-- The legal words are the words of the commands (R47). -/
theorem legalWord_iff_encode (w : CmdWord) : legalWord w = true ↔ w ∈ Set.range encode := by
  rw [legalWord_iff_decode]
  constructor
  · rintro ⟨i, h⟩
    exact ⟨i, encodeOfDecode w i h⟩
  · rintro ⟨i, rfl⟩
    exact ⟨i, decodeOfEncode i⟩

/-- There are as many legal words as commands. -/
theorem card_legalWord : Nat.card { w : CmdWord // legalWord w = true } = Nat.card Instr :=
  calc Nat.card { w : CmdWord // legalWord w = true }
    _ = Nat.card (Set.range encode) := Nat.card_congr (Equiv.subtypeEquivRight legalWord_iff_encode)
    _ = Nat.card Instr := Nat.card_range_of_injective encode_injective

/-- The eleven commands as the contents of their operand fields (R41, R44). -/
def operandFieldsEquiv :
    (_ : Byte) × Byte ⊕ ((_ : Byte) × (_ : Byte) × Byte) ⊕ Code ⊕ Code ⊕ Code ⊕
      ((_ : Byte) × (_ : Byte) × (_ : Byte) × (_ : Byte) × (_ : Byte) × Byte) ⊕
      ((_ : Byte) × (_ : Byte) × Byte) ⊕ Unit ⊕ Unit ⊕ Unit ⊕ Unit ≃ Instr :=
  proxy_equiv% Instr

/-- How many values a field of `n` bits has. -/
theorem card_bitVec (n : Nat) : Fintype.card (BitVec n) = 2 ^ n := by
  rw [← FinEnum.card_eq_fintypeCard, FinEnum.card_bitVec]

/-- How many commands there are, with their operands. -/
theorem card_instr : Nat.card Instr = 4 * 2 ^ 16 + 2 * 2 ^ 24 + 2 ^ 48 + 4 := by
  rw [← Nat.card_congr operandFieldsEquiv]
  simp [card_bitVec]

/-- Settles O5: each format's words are legal by its must-be-zero bits, and there are as many legal words as
commands. -/
theorem strayBitsIllegal : Obligations.StrayBitsIllegal := by
  refine ⟨fun data => ⟨fun op h => ?_, fun op h => ?_, fun op h => ?_, legalWord_f48 (opOf_append _ data)⟩,
    card_legalWord.trans card_instr⟩
  · simpa only [mbzP16_append] using legalWord_p16 (w := op ++ data) (by rwa [opOf_append])
  · simpa only [mbzP24_append] using legalWord_p24 (w := op ++ data) (by rwa [opOf_append])
  · simpa only [dataOf_append] using legalWord_n (w := op ++ data) (by rwa [opOf_append])

end Sys2Proof
end

section
/-! The hexadecimal spelling of words (R52, R53). -/

namespace Sys2Proof.Machine

/-- A number that fits its digits reads back (R50). -/
theorem readNumber_numberText_of_lt {n v : Nat} (hn : 0 < n) (hv : v < 16 ^ n) :
    readNumber (numberText n v) = some v := by
  obtain ⟨k, rfl⟩ := Nat.exists_eq_succ_of_ne_zero hn.ne'
  rw [readNumber_numberText, Nat.mod_eq_of_lt hv]

@[simp] theorem length_numberText (n v : Nat) : (numberText n v).length = n + 2 := by
  simp [numberText]

/-- Settles O7: both spellings have digits enough for their words, so reading undoes them. -/
theorem spellingReadsBack : Obligations.SpellingReadsBack := by
  refine ⟨fun w => ?_, fun r q h => ?_⟩
  · have hw : readNumber (commandText w) = some w.toNat := readNumber_numberText_of_lt (by decide) w.isLt
    have hlen : (commandText w).length = 15 := length_numberText 13 w.toNat
    simp [readCommand, hlen, hw]
  · have hread : ∀ x : RspWord, readNumber (responseText x) = some x.toNat :=
      fun x => readNumber_numberText_of_lt (by decide) x.isLt
    have hrq := hread r
    rw [h, hread q] at hrq
    exact BitVec.eq_of_toNat_eq (Option.some.inj hrq).symm

/-- The last `n` digits of a number are those of its last `n` digits. -/
theorem hexText_mod (n v : Nat) : hexText n (v % 16 ^ n) = hexText n v := by
  induction n generalizing v with
  | zero => rfl
  | succ n ih =>
    have hq : v % 16 ^ (n + 1) / 16 = v / 16 % 16 ^ n := by rw [pow_succ', Nat.mod_mul_right_div_self]
    have hr : v % 16 ^ (n + 1) % 16 = v % 16 := Nat.mod_mod_of_dvd v (dvd_pow_self 16 n.succ_ne_zero)
    rw [hexText, hexText, hq, hr, ih]

/-- The first digit of a command word is its opcode, the other twelve are its data field (R40, R52). -/
theorem commandText_eq (w : CmdWord) :
    commandText w = '0' :: 'x' :: hexChar (opOf w).toNat :: hexText 12 (dataOf w).toNat := by
  have ho : (opOf w).toNat = w.toNat / 16 ^ 12 % 16 := by
    simp [opOf, BitVec.extractLsb'_toNat, Nat.shiftRight_eq_div_pow]
  have hd : (dataOf w).toNat = w.toNat % 16 ^ 12 := by
    simp [dataOf, BitVec.extractLsb'_toNat]
  rw [commandText, numberText, hexText_succ, ho, hd, hexText_mod]

/-- Settles O6: the fields and the spelling for every word, and the eleven words of R52 decoded. -/
theorem spelledWordsDecode : Obligations.SpelledWordsDecode :=
  ⟨fun w => ⟨opOf_append_dataOf w, commandText_eq w⟩, by decide⟩

end Sys2Proof.Machine
end

section
/-! A command accepted at the port is answered after its latency (R39, R117). -/

namespace Sys2Proof.Machine

/-- The response cycle gives the command's response and leaves the port idle (R33, R39). -/
theorem Port.tick_answers {p : Port} {i : PortIn} {w : CmdWord} (hi : i.rst = false) (hp : p.phase = .busy w 0) :
    ∃ p' r, p.tick i = .next (p', ⟨false, true, r⟩) ∧ p'.phase = .idle ∧ runCommand w p.block = .next p'.block ∧
      p'.block.outputs = p.block.outputs ++ [r] := by
  obtain ⟨u, r, hr, ho, -⟩ := runCommand_emits w p.block
  refine ⟨⟨u.emit r, .idle, p.cycle + 1⟩, r, ?_, rfl, hr, congrArg (· ++ [r]) ho⟩
  rw [Port.tick_finish hi hp, Port.finish_eq hr, State.emit_outputs, List.getLastD_concat]

/-- A command with `n` cycles left is answered after `n` quiet cycles in which the port is not ready (R39). -/
theorem Port.run_busy {p : Port} {w : CmdWord} {n : Nat} {is : List PortIn} (hp : p.phase = .busy w n)
    (his : NoReset is) (hlen : is.length = n + 1) :
    ∃ p' quiet r, p.run is = .next (p', quiet ++ [⟨false, true, r⟩]) ∧ quiet.length = n ∧
      (∀ o ∈ quiet, o.rspValid = false ∧ o.cmdReady = false) ∧ p'.phase = .idle ∧
      runCommand w p.block = .next p'.block ∧ p'.block.outputs = p.block.outputs ++ [r] := by
  induction n generalizing p is with
  | zero =>
    obtain ⟨i, rfl⟩ := List.length_eq_one_iff.mp hlen
    obtain ⟨p', r, ht, hidle, hw, hout⟩ := Port.tick_answers (his i (by simp)) hp
    exact ⟨p', [], r, Port.run_cons ht rfl, rfl, by simp, hidle, hw, hout⟩
  | succ n ih =>
    obtain ⟨i, is, rfl⟩ := List.exists_cons_of_length_eq_add_one hlen
    have ht : p.tick i = p.quiet (.busy w n) false := Port.tick_busy (his i (by simp)) hp
    obtain ⟨p', quiet, r, hrun, hlen', hquiet, hidle, hw, hout⟩ :=
      ih (p := { p with phase := .busy w n, cycle := p.cycle + 1 }) rfl
        (fun j hj => his j (List.mem_cons_of_mem i hj)) (Nat.succ.inj hlen)
    exact ⟨p', ⟨false, false, Config.idleRsp p.cycle⟩ :: quiet, r, Port.run_cons ht hrun, congrArg (· + 1) hlen',
      List.forall_mem_cons.mpr ⟨⟨rfl, rfl⟩, hquiet⟩, hidle, hw, hout⟩

/-- Settles O57: the cycle of the acceptance is the first of the LAT quiet ones; the others count the latency down. -/
theorem responseAfterLatency : Obligations.ResponseAfterLatency := by
  intro p w is hp his hlen
  have ht : p.tick ⟨false, true, w⟩ = p.quiet (.busy w (Config.latMinusOne p.cycle w)) true := Port.tick_idle rfl hp
  obtain ⟨p', quiet, r, hrun, hlen', hquiet, hidle, hw, hout⟩ :=
    Port.run_busy (p := { p with phase := .busy w (Config.latMinusOne p.cycle w), cycle := p.cycle + 1 }) rfl his hlen
  exact ⟨p', ⟨true, false, Config.idleRsp p.cycle⟩ :: quiet, r, Port.run_cons ht hrun, congrArg (· + 1) hlen',
    List.forall_mem_cons.mpr ⟨rfl, fun o ho => (hquiet o ho).1⟩, fun o ho => (hquiet o ho).2, rfl, hidle, hw, hout⟩

end Sys2Proof.Machine
end

section
/-! Reading the text of a line (R50): blanks trimmed, parts split, operands read. -/

namespace Sys2Proof.Machine

/-! ### Blanks at the ends -/

/-- The text neither begins nor ends with a blank. -/
def Tight (cs : List Char) : Prop :=
  (∀ c ∈ cs.head?, isBlank c = false) ∧ ∀ c ∈ cs.getLast?, isBlank c = false

/-- A text that does not begin with a blank loses nothing at its front. -/
theorem dropWhile_isBlank {cs : List Char} (h : ∀ c ∈ cs.head?, isBlank c = false) : cs.dropWhile isBlank = cs := by
  cases cs with
  | nil => rfl
  | cons c cs => simp [h c rfl]

/-- A space before a text is trimmed away. -/
theorem trim_cons_space (cs : List Char) : trim (' ' :: cs) = trim cs := rfl

/-- A tight text is not trimmed. -/
theorem trim_of_tight {cs : List Char} (h : Tight cs) : trim cs = cs := by
  have hl : cs.reverse.dropWhile isBlank = cs.reverse := dropWhile_isBlank (by simpa using h.2)
  rw [trim, dropWhile_isBlank h.1, hl, List.reverse_reverse]

/-- A space after a tight text is trimmed away. -/
theorem trim_concat_space {cs : List Char} (h : Tight cs) : trim (cs ++ [' ']) = cs := by
  cases cs with
  | nil => rfl
  | cons c cs =>
    have hf : (c :: cs ++ [' ']).dropWhile isBlank = c :: cs ++ [' '] := dropWhile_isBlank h.1
    calc trim (c :: cs ++ [' '])
      _ = (((c :: cs) ++ [' ']).reverse.dropWhile isBlank).reverse := by rw [trim, hf]
      _ = ((c :: cs).reverse.dropWhile isBlank).reverse := by rw [List.reverse_concat]; rfl
      _ = trim (c :: cs) := by rw [trim, dropWhile_isBlank h.1]
      _ = c :: cs := trim_of_tight h

/-- Two tight texts that are not empty make a tight text with anything between them. -/
theorem Tight.append {a c : List Char} (ha : Tight a) (hc : Tight c) (hne : a ≠ []) (hne' : c ≠ []) (b : List Char) :
    Tight (a ++ b ++ c) := by
  constructor
  · rw [List.append_assoc, List.head?_append_of_ne_nil _ hne]
    exact ha.1
  · rw [List.getLast?_append_of_ne_nil _ hne']
    exact hc.2

/-! ### Plain characters -/

/-- The character has no meaning of its own in a line: it is no blank, comma or semicolon (R50). -/
def isPlain (c : Char) : Bool := c != ';' && c != ',' && !isBlank c

theorem isPlain_iff {c : Char} : isPlain c = true ↔ c ≠ ';' ∧ c ≠ ',' ∧ isBlank c = false := by
  simp [isPlain, and_assoc]

/-- A plain text: a head, a mnemonic or a number. -/
def PlainText (cs : List Char) : Prop := cs ≠ [] ∧ ∀ c ∈ cs, isPlain c = true

namespace PlainText

variable {cs : List Char} (h : PlainText cs)
include h

theorem tight : Tight cs :=
  ⟨fun c hc => (isPlain_iff.mp (h.2 c (List.mem_of_mem_head? hc))).2.2,
    fun c hc => (isPlain_iff.mp (h.2 c (List.mem_of_getLast? hc))).2.2⟩

theorem not_mem_comma : ',' ∉ cs := fun hc => (isPlain_iff.mp (h.2 ',' hc)).2.1 rfl

theorem not_mem_semicolon : ';' ∉ cs := fun hc => (isPlain_iff.mp (h.2 ';' hc)).1 rfl

theorem not_isBlank : ∀ c ∈ cs, (!isBlank c) = true := fun c hc => by simp [(isPlain_iff.mp (h.2 c hc)).2.2]

end PlainText

theorem plain_hexChar (d : Nat) : isPlain (hexChar d) = true := by
  obtain ⟨h1, h2, h3, h4⟩ := hexChar_plain d
  simp [isPlain, isBlank, h1, h2, h3, h4]

theorem plain_hexText (n v : Nat) : ∀ c ∈ hexText n v, isPlain c = true := by
  induction n generalizing v with
  | zero => simp [hexText]
  | succ n ih =>
    rw [hexText_succ, List.forall_mem_cons]
    exact ⟨plain_hexChar _, ih v⟩

theorem plainText_numberText (n v : Nat) : PlainText (numberText n v) := by
  refine ⟨List.cons_ne_nil _ _, ?_⟩
  rw [numberText, List.forall_mem_cons, List.forall_mem_cons]
  exact ⟨rfl, rfl, plain_hexText n v⟩

theorem plainText_lineHead (l : AsmLine) : PlainText (lineHead l) := by
  cases l <;> exact ⟨List.cons_ne_nil _ _, List.all_eq_true.mp rfl⟩

/-! ### Operand lists -/

/-- The part before the first comma is split off (R50). -/
theorem splitCommas_append_comma {cs : List Char} (h : ',' ∉ cs) (rest : List Char) :
    splitCommas (cs ++ ',' :: rest) = cs :: splitCommas rest := by
  induction cs with
  | nil => simp [splitCommas]
  | cons c cs ih =>
    obtain ⟨hc, hcs⟩ := List.ne_and_not_mem_of_not_mem_cons h
    simp [splitCommas, Ne.symm hc, ih hcs]

/-- A text without a comma is one part (R50). -/
theorem splitCommas_of_not_mem {cs : List Char} (h : ',' ∉ cs) : splitCommas cs = [cs] := by
  induction cs with
  | nil => rfl
  | cons c cs ih =>
    obtain ⟨hc, hcs⟩ := List.ne_and_not_mem_of_not_mem_cons h
    simp [splitCommas, Ne.symm hc, ih hcs]

/-- Operands of `k` digits each as R50 writes them, separated by a comma and a space. -/
def operandsText (k : Nat) : List Nat → List Char
  | [] => []
  | n :: ns => numberText k n ++ ns.flatMap fun m => ',' :: ' ' :: numberText k m

/-- The parts after a first part `p` are the other operands, each with its space. -/
theorem splitCommas_operands {p : List Char} (hp : ',' ∉ p) (k : Nat) (ns : List Nat) :
    splitCommas (p ++ ns.flatMap fun m => ',' :: ' ' :: numberText k m) =
      p :: ns.map fun m => ' ' :: numberText k m := by
  induction ns generalizing p with
  | nil => simpa using splitCommas_of_not_mem hp
  | cons n ns ih =>
    have hn : ',' ∉ ' ' :: numberText k n := by simp [(plainText_numberText k n).not_mem_comma]
    calc splitCommas (p ++ (n :: ns).flatMap fun m => ',' :: ' ' :: numberText k m)
      _ = splitCommas (p ++ ',' :: (' ' :: numberText k n ++ ns.flatMap fun m => ',' :: ' ' :: numberText k m)) := rfl
      _ = p :: (' ' :: numberText k n) :: ns.map fun m => ' ' :: numberText k m := by
        rw [splitCommas_append_comma hp, ih hn]

section Operands

variable {k : Nat} (hk : 0 < k)
include hk

/-- An operand reads back. -/
theorem readNumber_trim {n : Nat} (hn : n < 16 ^ k) : readNumber (trim (numberText k n)) = some n := by
  rw [trim_of_tight (plainText_numberText k n).tight, readNumber_numberText_of_lt hk hn]

/-- The parts of an operand list read back. -/
theorem mapM_readNumber {ns : List Nat} (h : ∀ n ∈ ns, n < 16 ^ k) :
    (ns.map fun m => ' ' :: numberText k m).mapM (fun part => readNumber (trim part)) = some ns := by
  induction ns with
  | nil => rfl
  | cons n ns ih =>
    obtain ⟨hn, hns⟩ := List.forall_mem_cons.mp h
    simp [trim_cons_space, readNumber_trim hk hn, ih hns]

/-- An operand list reads back (R50). -/
theorem readOperands_operandsText {ns : List Nat} (h : ∀ n ∈ ns, n < 16 ^ k) :
    readOperands (operandsText k ns) = some ns := by
  cases ns with
  | nil => rfl
  | cons n ns =>
    obtain ⟨hn, hns⟩ := List.forall_mem_cons.mp h
    rw [readOperands, if_neg (by simp [operandsText, numberText]), operandsText,
      splitCommas_operands (plainText_numberText k n).not_mem_comma]
    simp [readNumber_trim hk hn, mapM_readNumber hk hns]

end Operands

/-- A list of operands, some at least, neither begins nor ends with a blank. -/
theorem tight_operandsText (k n : Nat) (ns : List Nat) : Tight (operandsText k (n :: ns)) := by
  induction ns generalizing n with
  | nil => simpa [operandsText] using (plainText_numberText k n).tight
  | cons m ns ih =>
    have h := (plainText_numberText k n).tight.append (ih m) (plainText_numberText k n).1
      (by simp [operandsText, numberText]) [',', ' ']
    simpa [operandsText] using h

theorem not_mem_semicolon_operandsText (k : Nat) (ns : List Nat) : ';' ∉ operandsText k ns := by
  cases ns with
  | nil => simp [operandsText]
  | cons n ns => simp [operandsText, (plainText_numberText k _).not_mem_semicolon]

end Sys2Proof.Machine
end

section
/-! A written line and its meaning (R41, R43, R50). -/

namespace Sys2Proof.Machine

/-- The operands of a line, as the numbers written. -/
def lineOperands : AsmLine → List Nat
  | .crc8 p0 p1 => [p0, p1]
  | .verify p0 p1 c => [p0, p1, c]
  | .cvtc code => [code]
  | .cvtf code => [code]
  | .cvrh code => [code]
  | .frame b0 b1 b2 b3 b4 b5 => [b0, b1, b2, b3, b4, b5]
  | .vstat s0 s1 c => [s0, s1, c]
  | .rdtc => []
  | .rdtf => []
  | .rdrh => []
  | .rdflg => []
  | .reset => []

/-- How many digits each operand of a line is written with: four a code, two a byte (R50). -/
def lineDigits : AsmLine → Nat
  | .cvtc _ => 4
  | .cvtf _ => 4
  | .cvrh _ => 4
  | _ => 2

theorem lineDigits_pos (l : AsmLine) : 0 < lineDigits l := by
  cases l <;> exact Nat.succ_pos _

theorem operandTexts_eq (l : AsmLine) : operandTexts l = (lineOperands l).map (numberText (lineDigits l)) := by
  cases l <;> rfl

/-- A line is well formed exactly if its operands fit their digits (R41). -/
theorem wellFormed_iff (l : AsmLine) : l.wellFormed = true ↔ ∀ n ∈ lineOperands l, n < 16 ^ lineDigits l := by
  cases l <;> simp [AsmLine.wellFormed, bytesFit, lineOperands, lineDigits]

/-- Of the lines with the operands of `l`, only `l` has its head. -/
theorem filter_linesWith (l : AsmLine) :
    (linesWith (lineOperands l)).filter (fun m => lineHead m = lineHead l) = [l] := by
  cases l <;> simp [linesWith, lineOperands, lineHead]

/-- The text of a line is its head alone, or its head, a space and the operands (R50). -/
theorem lineText_cases (l : AsmLine) :
    (lineOperands l = [] ∧ lineText l = lineHead l) ∨
    ∃ n ns, lineOperands l = n :: ns ∧ lineText l = lineHead l ++ ' ' :: operandsText (lineDigits l) (n :: ns) := by
  rw [lineText, operandTexts_eq]
  cases lineOperands l with
  | nil => exact .inl ⟨rfl, rfl⟩
  | cons n ns => exact .inr ⟨n, ns, rfl, by simp [operandsText, List.flatMap_map]⟩

theorem lineText_ne_nil (l : AsmLine) : lineText l ≠ [] := by
  obtain ⟨-, ht⟩ | ⟨n, ns, -, ht⟩ := lineText_cases l <;> simp [ht, (plainText_lineHead l).1]

theorem tight_lineText (l : AsmLine) : Tight (lineText l) := by
  have hh := plainText_lineHead l
  obtain ⟨-, ht⟩ | ⟨n, ns, -, ht⟩ := lineText_cases l
  · rw [ht]
    exact hh.tight
  · have h := hh.tight.append (tight_operandsText (lineDigits l) n ns) hh.1 (by simp [operandsText, numberText]) [' ']
    simpa [ht] using h

theorem not_mem_semicolon_lineText (l : AsmLine) : ';' ∉ lineText l := by
  have hh := (plainText_lineHead l).not_mem_semicolon
  obtain ⟨-, ht⟩ | ⟨n, ns, -, ht⟩ := lineText_cases l
  · rwa [ht]
  · simp [ht, hh, not_mem_semicolon_operandsText]

/-- Up to the first blank a line is its head. -/
theorem takeWhile_lineText (l : AsmLine) : (lineText l).takeWhile (!isBlank ·) = lineHead l := by
  have hh := (plainText_lineHead l).not_isBlank
  obtain ⟨-, ht⟩ | ⟨n, ns, -, ht⟩ := lineText_cases l
  · rw [ht]
    exact List.takeWhile_eq_self_iff.mpr hh
  · rw [ht, List.takeWhile_append_of_pos hh]
    exact List.append_nil _

/-- From there on a line is its operands. -/
theorem trim_dropWhile_lineText (l : AsmLine) :
    trim ((lineText l).dropWhile (!isBlank ·)) = operandsText (lineDigits l) (lineOperands l) := by
  have hh := (plainText_lineHead l).not_isBlank
  obtain ⟨hn, ht⟩ | ⟨n, ns, hn, ht⟩ := lineText_cases l
  · rw [ht, hn, List.dropWhile_eq_nil_iff.mpr hh]
    rfl
  · rw [ht, hn, List.dropWhile_append_of_pos hh]
    exact trim_of_tight (tight_operandsText (lineDigits l) n ns)

/-- A text whose part before a comment is the text of a well-formed line reads as that line (R50). -/
theorem readLine_of_body {l : AsmLine} (hl : l.wellFormed = true) {cs : List Char}
    (h : trim (cs.takeWhile (· ≠ ';')) = lineText l) : readLine cs = some [l] := by
  have hops : readOperands (operandsText (lineDigits l) (lineOperands l)) = some (lineOperands l) :=
    readOperands_operandsText (lineDigits_pos l) ((wellFormed_iff l).mp hl)
  simp only [readLine, h, if_neg (lineText_ne_nil l), trim_dropWhile_lineText, takeWhile_lineText, hops,
    filter_linesWith, hl, if_true]

/-- Up to a semicolon after it, a line keeps what stands before. -/
theorem takeWhile_semicolon (l : AsmLine) (rest : List Char) :
    (lineText l ++ rest).takeWhile (· ≠ ';') = lineText l ++ rest.takeWhile (· ≠ ';') :=
  List.takeWhile_append_of_pos fun c hc => by
    simpa using ne_of_mem_of_not_mem hc (not_mem_semicolon_lineText l)

theorem readLine_lineText {l : AsmLine} (hl : l.wellFormed = true) : readLine (lineText l) = some [l] := by
  refine readLine_of_body hl ?_
  have h := takeWhile_semicolon l []
  rw [List.append_nil] at h
  rw [h, List.takeWhile_nil, List.append_nil, trim_of_tight (tight_lineText l)]

theorem readLine_lineText_comment {l : AsmLine} (hl : l.wellFormed = true) (comment : List Char) :
    readLine (lineText l ++ ' ' :: ';' :: comment) = some [l] := by
  refine readLine_of_body hl ?_
  have hc : (' ' :: ';' :: comment).takeWhile (· ≠ ';') = [' '] := rfl
  rw [takeWhile_semicolon, hc, trim_concat_space (tight_lineText l)]

/-- Each operand of a well-formed line keeps its written value in its field of two or four digits (R41). -/
theorem toNat_lineOperands {l : AsmLine} (hl : l.wellFormed = true) :
    ∀ v ∈ lineOperands l, (BitVec.ofNat (4 * lineDigits l) v).toNat = v := by
  intro v hv
  have hfit : v < 16 ^ lineDigits l := (wellFormed_iff l).mp hl v hv
  rw [BitVec.toNat_ofNat, pow_mul]
  exact Nat.mod_eq_of_lt hfit

/-- Settles O8: the text reads back part by part, and the decoder reads back the word with the operands' values. -/
theorem writtenLinesAreCommands : Obligations.WrittenLinesAreCommands := by
  intro l hl
  refine ⟨readLine_lineText hl, readLine_lineText_comment hl, ?_⟩
  have hv := toNat_lineOperands hl
  cases l with
  | crc8 p0 p1 =>
    simp only [lineOperands, List.forall_mem_cons] at hv
    obtain ⟨h0, h1, -⟩ := hv
    exact ⟨_, _, decodeOfEncode _, h0, h1⟩
  | verify p0 p1 c | vstat p0 p1 c =>
    simp only [lineOperands, List.forall_mem_cons] at hv
    obtain ⟨h0, h1, h2, -⟩ := hv
    exact ⟨_, _, _, decodeOfEncode _, h0, h1, h2⟩
  | cvtc code | cvtf code | cvrh code =>
    simp only [lineOperands, List.forall_mem_cons] at hv
    exact ⟨_, decodeOfEncode _, hv.1⟩
  | frame b0 b1 b2 b3 b4 b5 =>
    simp only [lineOperands, List.forall_mem_cons] at hv
    obtain ⟨h0, h1, h2, h3, h4, h5, -⟩ := hv
    exact ⟨_, _, _, _, _, _, decodeOfEncode _, h0, h1, h2, h3, h4, h5⟩
  | rdtc | rdtf | rdrh | rdflg => exact decodeOfEncode _
  | reset => rfl

end Sys2Proof.Machine
end

section
/-! The algebra of the checksum: the algorithm is linear over exclusive or, taking a byte in loses nothing, and so a
channel passes exactly if the algorithm over all three of its bytes ends at 0 (R55, R59). -/

namespace Sys2Proof.Machine

/-- The algorithm over an exclusive or of byte strings is the exclusive or of its runs over each (R59 (c)). -/
theorem crcRun_xor (c d : Byte) (ps : List (Byte × Byte)) :
    crcRun (c ^^^ d) (ps.map fun p => p.1 ^^^ p.2) = crcRun c (ps.map Prod.fst) ^^^ crcRun d (ps.map Prod.snd) := by
  induction ps generalizing c d with
  | nil => rfl
  | cons p ps ih =>
    calc crcRun (crcAbsorb (c ^^^ d) (p.1 ^^^ p.2)) (ps.map fun p => p.1 ^^^ p.2)
        = crcRun (crcAbsorb c p.1 ^^^ crcAbsorb d p.2) (ps.map fun p => p.1 ^^^ p.2) := by rw [crcAbsorb_xor]
      _ = crcRun (crcAbsorb c p.1) (ps.map Prod.fst) ^^^ crcRun (crcAbsorb d p.2) (ps.map Prod.snd) := ih _ _

/-- An advance loses nothing: the bit shifted out can be read off the lowest bit, which only the polynomial sets. -/
theorem crcAdvance_injective : Function.Injective crcAdvance := by
  have hlow : ∀ c : Byte, (crcAdvance c).getLsbD 0 = c.getLsbD 7 := by
    intro c
    unfold crcAdvance
    split
    case isTrue h => simp [crcPoly, h]
    case isFalse h => simpa using h
  intro a b hab
  have hout : a.getLsbD 7 = b.getLsbD 7 := by rw [← hlow, ← hlow, hab]
  have hshift : a <<< 1 = b <<< 1 := by
    unfold crcAdvance at hab
    rw [hout] at hab
    split at hab
    · exact (BitVec.xor_left_inj _).mp hab
    · exact hab
  apply BitVec.eq_of_getLsbD_eq
  intro i hi
  obtain rfl | hlt : i = 7 ∨ i + 1 < 8 := by omega
  · exact hout
  · have h : (a <<< 1).getLsbD (i + 1) = (b <<< 1).getLsbD (i + 1) := by rw [hshift]
    simpa [hlt, BitVec.getLsbD_eq_getElem hi] using h

theorem crcAdvances_injective (n : Nat) : Function.Injective (crcAdvances n) := by
  induction n with
  | zero => exact Function.injective_id
  | succ n ih => exact ih.comp crcAdvance_injective

/-- Taking a byte in leaves the register 0 exactly if the byte is what the register held. -/
theorem crcAbsorb_eq_zero_iff (c b : Byte) : crcAbsorb c b = 0#8 ↔ b = c := by
  have h0 : crcAdvances 8 0#8 = 0#8 := by decide
  calc crcAbsorb c b = 0#8 ↔ crcAdvances 8 (c ^^^ b) = crcAdvances 8 0#8 := by rw [h0, crcAbsorb]
    _ ↔ c ^^^ b = 0#8 := (crcAdvances_injective 8).eq_iff
    _ ↔ b = c := by rw [BitVec.xor_eq_zero_iff, eq_comm]

/-- From every register value, each value is reached by taking in exactly one byte. -/
theorem crcAbsorb_bijective (c : Byte) : Function.Bijective (crcAbsorb c) :=
  Finite.injective_iff_bijective.mp fun _ _ h => (BitVec.xor_right_inj c).mp (crcAdvances_injective 8 h)

/-- A channel passes exactly if the algorithm over its payload and its checksum ends at 0 (R59 (b), R75). -/
theorem chk_iff_crcRun_eq_zero (p0 p1 c : Byte) : chk p0 p1 c = true ↔ crcRun 0xFF#8 [p0, p1, c] = 0#8 := by
  rw [chk_iff, eq_comm]
  exact (crcAbsorb_eq_zero_iff (crc8 p0 p1) c).symm

/-- Settles O18: the checksum is taken into the register that holds it. -/
theorem checksumResidueZero : Obligations.ChecksumResidueZero := fun p0 p1 =>
  (chk_iff_crcRun_eq_zero p0 p1 (crc8 p0 p1)).mp ((chk_iff ..).mpr rfl)

/-- Settles O19: linearity over two bytes, from register values whose exclusive or is the first; the image is 0 for the
one second byte that the register holds after the first. -/
theorem checksumAffine : Obligations.ChecksumAffine := by
  refine ⟨fun a0 a1 d0 d1 => ?_, fun d0 d1 e0 e1 => ?_, fun d0 => ?_⟩
  · exact crcRun_xor 0xFF#8 0#8 [(a0, d0), (a1, d1)]
  · exact crcRun_xor 0#8 0#8 [(d0, e0), (d1, e1)]
  · exact (crcAbsorb_bijective (crcAbsorb 0#8 d0)).existsUnique 0#8

/-- Settles O21: the second byte is taken in last, and any register value is so reached in one way. -/
theorem checksumUniform : Obligations.ChecksumUniform := fun v b0 =>
  (crcAbsorb_bijective (crcAbsorb 0xFF#8 b0)).existsUnique v

/-- Settles O14: the table entry by entry, and each byte taken in as its look-up. -/
theorem checksumTableForm : Obligations.ChecksumTableForm := by
  have htable : ∀ x : Byte, crcT x = crcRun 0x00#8 [x] := by decide +kernel
  have habsorb : ∀ c b : Byte, crcAbsorb c b = crcT (c ^^^ b) := fun c b =>
    (crcAbsorb_zero c b).trans (htable (c ^^^ b)).symm
  refine ⟨htable, fun b0 b1 => ?_, by decide +kernel⟩
  rw [crc8_eq, habsorb, habsorb]

end Sys2Proof.Machine
end

section
/-! Errors on the 24 bits of a channel: the algorithm run over an error pattern from 0 decides whether it is detected
(R59 (d), R75). -/

namespace Sys2Proof.Machine

/-- The algorithm of R55 run over the 24 bits of a channel, first payload byte first (R60). -/
def channelResidue (start : Byte) (x : BitVec 24) : Byte :=
  crcRun start [x.extractLsb' 16 8, x.extractLsb' 8 8, x.extractLsb' 0 8]

theorem channelResidue_xor (c d : Byte) (x e : BitVec 24) :
    channelResidue (c ^^^ d) (x ^^^ e) = channelResidue c x ^^^ channelResidue d e := by
  simp only [channelResidue, BitVec.extractLsb'_xor]
  exact crcRun_xor c d [(x.extractLsb' 16 8, e.extractLsb' 16 8), (x.extractLsb' 8 8, e.extractLsb' 8 8),
    (x.extractLsb' 0 8, e.extractLsb' 0 8)]

/-- A channel that passes still passes with an error exactly if the error pattern's own residue from 0 is 0. -/
theorem corrupted_passes_iff {x : BitVec 24} (hx : channelResidue 0xFF#8 x = 0#8) (e : BitVec 24) :
    channelResidue 0xFF#8 (x ^^^ e) = 0#8 ↔ channelResidue 0#8 e = 0#8 := by
  have h : channelResidue 0xFF#8 (x ^^^ e) = channelResidue 0xFF#8 x ^^^ channelResidue 0#8 e :=
    channelResidue_xor 0xFF#8 0#8 x e
  rw [h, hx, BitVec.zero_xor]

/-- The 24 patterns of one bit and the 276 of two, each by its residue (R59 (d)). -/
theorem channelResidue_smallError : ∀ i j : Fin 24, channelResidue 0#8 (1#24 <<< i.val ||| 1#24 <<< j.val) ≠ 0#8 := by
  decide +kernel

/-- Settles O20: on a channel that passes, the error pattern's residue decides, and no small pattern has residue 0. -/
theorem smallErrorsDetected : Obligations.SmallErrorsDetected := by
  unfold Obligations.SmallErrorsDetected
  intro ok
  have hok : ∀ x : BitVec 24, ok x = true ↔ channelResidue 0xFF#8 x = 0#8 := fun x => chk_iff_crcRun_eq_zero ..
  have hpass : ∀ x e : BitVec 24, ok x = true → (ok (x ^^^ e) = true ↔ channelResidue 0#8 e = 0#8) := fun x e hx =>
    (hok _).trans (corrupted_passes_iff ((hok x).mp hx) e)
  refine ⟨fun x y e hx hy => ?_, fun x i j hx => ?_⟩
  · exact Bool.eq_iff_iff.mpr ((hpass x e hx).trans (hpass y e hy).symm)
  · exact Bool.eq_false_iff.mpr fun h => channelResidue_smallError i j ((hpass x _ hx).mp h)

end Sys2Proof.Machine
end

section
/-! The commands CRC8 and VERIFY, and the two frames of a broken bus (R57, R58, R62, R83). -/

namespace Sys2Proof.Machine

/-- A byte answered without an event stands below 16 zeros (R8, R42). -/
theorem responseWord_byte (b : Byte) : responseWord false false false false (zext20 b) = 0#16 ++ b := by
  rw [responseWord_quiet, zext20]
  apply BitVec.eq_of_getLsbD_eq
  intro i hi
  rw [BitVec.getLsbD_append, BitVec.getLsbD_append]
  grind

/-- CRC8 changes nothing; its response is the checksum (R57). -/
theorem exec_crc8 (p0 p1 : Byte) (s : State) : exec (.crc8 p0 p1) s = .next (s.emit (0#16 ++ crc8 p0 p1)) := by
  rw [← responseWord_byte]
  rfl

/-- VERIFY changes nothing; its response is 1 or 0, without a warning (R58). -/
theorem exec_verify (p0 p1 c : Byte) (s : State) : exec (.verify p0 p1 c) s =
    .next (s.emit (if crc8 p0 p1 = c then 0x000001#24 else 0x000000#24)) := by
  simp only [exec, execVerify, answer_eq, chk]
  by_cases h : crc8 p0 p1 = c
  · simp only [h, beq_self_eq_true, if_true]; rfl
  · simp only [beq_false_of_ne h, if_neg h]; rfl

/-- Settles O15: the response of CRC8, and the values of R57 computed. -/
theorem crcCommandCompletes : Obligations.CrcCommandCompletes :=
  ⟨fun p0 p1 s => ⟨exec_crc8 p0 p1 s, rfl⟩, by decide +kernel⟩

/-- Settles O16: the response of VERIFY. -/
theorem verifyCommandCompletes : Obligations.VerifyCommandCompletes := fun p0 p1 c s =>
  ⟨exec_verify p0 p1 c s, rfl⟩

/-- Settles O17: a flipped bit makes another byte, and VERIFY answers 1 for the checksum alone. -/
theorem verifyRoundTrip : Obligations.VerifyRoundTrip := by
  intro p0 p1 s
  refine ⟨(exec_verify ..).trans (by rw [if_pos rfl]; rfl), fun k hk => ?_⟩
  have hbit : ∀ k < 8, 1#8 <<< k ≠ 0#8 := by decide
  have hne : crc8 p0 p1 ≠ crc8 p0 p1 ^^^ 1#8 <<< k := fun h =>
    hbit k hk ((BitVec.xor_right_inj (crc8 p0 p1)).mp (h.symm.trans BitVec.xor_zero.symm))
  rw [exec_verify, if_neg hne]
  rfl

/-- With both channels failed, FRAME clears the valid flags and answers both warnings with the ready image (R77 to
R79). -/
theorem exec_frame_of_both_fail {b0 b1 b2 b3 b4 b5 : Byte} (ht : chk b0 b1 b2 = false) (hh : chk b3 b4 b5 = false)
    (s : State) : exec (.frame b0 b1 b2 b3 b4 b5) s =
      .next (((s.setTv false).setHv false).emit
        (responseWord false false true true (zext20 ((s.setTv false).setHv false).flags))) := by
  have hT : s.takeTemperature ⟨b0, b1, b2⟩ = s.setTv false := by simp [State.takeTemperature, Channel.ok, ht]
  have hH : (s.setTv false).takeHumidity ⟨b3, b4, b5⟩ = (s.setTv false).setHv false := by
    simp [State.takeHumidity, Channel.ok, hh]
  rw [exec_frame, hT, hH, ht, hh]
  rfl

/-- Settles O22: neither byte is the checksum of itself twice, so both channels fail. -/
theorem brokenBusFramesFail : Obligations.BrokenBusFramesFail := by
  intro s b hb
  have hfail : ∀ b ∈ [0x00#8, 0xFF#8], chk b b b = false := by decide +kernel
  have hrsp : ∀ trdy hrdy : Bool, responseWord false false true true (zext20 (BitVec.ofBool (trdy && hrdy) ++
      BitVec.ofBool hrdy ++ BitVec.ofBool trdy ++ BitVec.ofBool false ++ BitVec.ofBool false)) =
      0x3#4 ++ 0#15 ++ BitVec.ofBool (trdy && hrdy) ++ BitVec.ofBool hrdy ++ BitVec.ofBool trdy ++ 0#2 := by decide
  rw [exec_frame_of_both_fail (hfail b hb) (hfail b hb), ← hrsp]
  rfl

end Sys2Proof.Machine
end

section
/-! The three conversions: one scaled code, a quotient rounded once, carries all of R63 to R66 and R70 to R72; the
commands CVTC, CVTF and CVRH answer it (R67 to R69). -/

namespace Sys2Proof.Machine

/-- The scaled code is the floor of R63 to R65 over the rationals. -/
theorem scaled_eq_floor (factor : Nat) (code : Code) :
    (scaled factor code : Int) = ⌊((factor : ℚ) * code.toNat + 65535) / 131070⌋ := by
  have h := Rat.floor_natCast_div_natCast (65535 + factor * code.toNat) 131070
  rw [scaled, Int.natCast_div, ← h]
  push_cast
  rw [add_comm]

/-- The scaled code is at most half its factor, rounded (R70): a code is at most 65535. -/
theorem two_mul_scaled_le (factor : Nat) (code : Code) : 2 * scaled factor code ≤ factor + 1 := by
  have hs := scaled_spec factor code
  have hc : factor * code.toNat ≤ factor * 65535 := Nat.mul_le_mul_left factor (Nat.le_of_lt_succ code.isLt)
  omega

/-- The scaled code is the nearest integer; 131070 times it is even, and 65535 is odd, so there is no tie (R66, R72). -/
theorem scaled_isNearest {factor : Nat} {half : Int} (h : (factor : Int) = 2 * half) (code : Code) :
    IsNearest (scaled factor code) (half * code.toNat) 65535 := by
  obtain ⟨hlo, hhi⟩ := scaled_spec factor code
  zify at hlo hhi
  rw [h, mul_assoc] at hlo hhi
  unfold IsNearest
  omega

/-- The next code's scaled code is larger by the whole part of `factor / 131070`, or by one more (R72 (a)). -/
theorem scaled_succ (factor : Nat) {code : Code} (h : code.toNat < 65535) :
    scaled factor (code + 1) = scaled factor code + factor / 131070 ∨
      scaled factor (code + 1) = scaled factor code + factor / 131070 + 1 := by
  have hnext : (code + 1).toNat = code.toNat + 1 := BitVec.toNat_add_of_lt (by simpa using by omega)
  have hs := scaled_spec factor code
  have hs' := scaled_spec factor (code + 1)
  rw [hnext, mul_add_one] at hs'
  omega

/-- With at least one thousandth per code, a larger code has a larger scaled code (R72 (a)). -/
theorem scaled_lt {factor : Nat} (h : 131070 ≤ factor) {a b : Code} (hab : a.toNat < b.toNat) :
    scaled factor a < scaled factor b := by
  have hstep : factor * (a.toNat + 1) ≤ factor * b.toNat := Nat.mul_le_mul_left factor hab
  have ha := scaled_spec factor a
  have hb := scaled_spec factor b
  rw [mul_add_one] at hstep
  omega

theorem scaled_injective {factor : Nat} (h : 131070 ≤ factor) : Function.Injective (scaled factor) := by
  intro a b hab
  rcases Nat.lt_trichotomy a.toNat b.toNat with hlt | heq | hgt
  · exact absurd hab (scaled_lt h hlt).ne
  · exact BitVec.eq_of_toNat_eq heq
  · exact absurd hab (scaled_lt h hgt).ne'

/-- A conversion that offsets its scaled code without wrapping gives distinct results for distinct codes (R72 (a)). -/
theorem conversion_injective {cvt : Code → Milli} {offset : Int} {factor : Nat} (h : 131070 ≤ factor)
    (hcvt : ∀ code, (cvt code).toInt = offset + scaled factor code) : Function.Injective cvt := by
  intro a b hab
  have hint : (cvt a).toInt = (cvt b).toInt := congrArg BitVec.toInt hab
  rw [hcvt, hcvt] at hint
  exact scaled_injective h (by omega)

/-- The Celsius result, counted from the lowest one (R63). -/
theorem toInt_cvtTc_add (code : Code) : (cvtTc code).toInt + 45000 = scaled 350000 code := by
  rw [toInt_cvtTc, neg_add_cancel_comm]

/-- The Fahrenheit result, counted from the lowest one (R64). -/
theorem toInt_cvtTf_add (code : Code) : (cvtTf code).toInt + 49000 = scaled 630000 code := by
  rw [toInt_cvtTf, neg_add_cancel_comm]

/-- The humidity result as an integer (R65, R70). -/
theorem toInt_cvtRh (code : Code) : (cvtRh code).toInt = scaled 200000 code := by
  have hs := two_mul_scaled_le 200000 code
  exact toInt_toS20 (by omega) (by omega)

/-- The Celsius results run from -45.000 to 130.000 (R63). -/
theorem toInt_cvtTc_range (code : Code) : -45000 ≤ (cvtTc code).toInt ∧ (cvtTc code).toInt ≤ 130000 := by
  have hs := two_mul_scaled_le 350000 code
  rw [toInt_cvtTc]
  omega

/-- The Fahrenheit results run from -49.000 to 266.000 (R64). -/
theorem toInt_cvtTf_range (code : Code) : -49000 ≤ (cvtTf code).toInt ∧ (cvtTf code).toInt ≤ 266000 := by
  have hs := two_mul_scaled_le 630000 code
  rw [toInt_cvtTf]
  omega

/-- The humidity results run from 0.000 to 100.000 (R65). -/
theorem toInt_cvtRh_range (code : Code) : 0 ≤ (cvtRh code).toInt ∧ (cvtRh code).toInt ≤ 100000 := by
  have hs := two_mul_scaled_le 200000 code
  rw [toInt_cvtRh]
  omega

/-- Settles O23: each result is its scaled code, which is the floor. -/
theorem conversionFormulas : Obligations.ConversionFormulas := by
  intro code
  obtain ⟨hTcLow, hTcHigh⟩ := toInt_cvtTc_range code
  obtain ⟨hTfLow, hTfHigh⟩ := toInt_cvtTf_range code
  obtain ⟨hRhLow, hRhHigh⟩ := toInt_cvtRh_range code
  refine ⟨?_, ?_, ?_, hTcLow, hTcHigh, hTfLow, hTfHigh, hRhLow, hRhHigh⟩
  · rw [toInt_cvtTc, scaled_eq_floor, Nat.cast_ofNat]
  · rw [toInt_cvtTf, scaled_eq_floor, Nat.cast_ofNat]
  · rw [toInt_cvtRh, scaled_eq_floor, Nat.cast_ofNat]

/-- Settles O27: each result, counted from its lowest one, is the scaled code. -/
theorem conversionsRoundToNearest : Obligations.ConversionsRoundToNearest := by
  intro code
  rw [toInt_cvtTc_add, toInt_cvtTf_add, toInt_cvtRh]
  exact ⟨scaled_isNearest rfl code, scaled_isNearest rfl code, scaled_isNearest rfl code⟩

/-- Settles O28: a code is at most 65535, and a scaled code at most half its factor. -/
theorem conversionsNeverOverflow : Obligations.ConversionsNeverOverflow := by
  intro code
  have hc := code.isLt
  have htc := two_mul_scaled_le 350000 code
  have htf := two_mul_scaled_le 630000 code
  have hrh := two_mul_scaled_le 200000 code
  exact ⟨by omega, by omega, by omega, by omega, by omega, by omega,
    toInt_cvtTc code, toInt_cvtTf code, toInt_cvtRh code⟩

/-- Settles O30: the whole parts of `factor / 131070` are 2, 4 and 1. -/
theorem conversionSteps : Obligations.ConversionSteps := by
  intro code h
  simp only [toInt_cvtTc, toInt_cvtTf, toInt_cvtRh]
  refine ⟨?_, ?_, ?_⟩
  · have hs := scaled_succ 350000 h
    omega
  · have hs := scaled_succ 630000 h
    omega
  · have hs := scaled_succ 200000 h
    omega

/-- A scaled code is the exact value if and only if 65535 divides the exact numerator (R72 (b)). -/
theorem scaled_exact_iff {factor half : Nat} (h : factor = 2 * half) (code : Code) :
    65535 * (scaled factor code : Int) = half * code.toNat ↔ 65535 ∣ half * code.toNat := by
  have hs := scaled_spec factor code
  rw [h, mul_assoc] at hs
  rw [h]
  norm_cast
  omega

/-- 0.000 °C is the result of one code (R72 (e)). -/
theorem toInt_cvtTc_eq_zero_iff (code : Code) : (cvtTc code).toInt = 0 ↔ code = 0x41D4 := by
  have hs := scaled_spec 350000 code
  rw [toInt_cvtTc, ← BitVec.toNat_inj]
  change _ ↔ code.toNat = 0x41D4
  omega

/-- Settles O31: the scaled codes are injective, and exact where 65535 divides the exact numerator: 65535 shares the
factor 5 with 175000 and 100000, the factor 15 with 315000. -/
theorem conversionsExactAndDistinct : Obligations.ConversionsExactAndDistinct := by
  refine ⟨fun a b h => ?_, fun code => ⟨?_, ?_, ?_, toInt_cvtTc_eq_zero_iff code⟩⟩
  · rcases h with h | h | h
    · exact conversion_injective (by decide) toInt_cvtTc h
    · exact conversion_injective (by decide) toInt_cvtTf h
    · exact conversion_injective (by decide) (fun code => (toInt_cvtRh code).trans (zero_add _).symm) h
  · rw [toInt_cvtTc_add]
    exact (scaled_exact_iff (half := 175000) rfl code).trans (by omega)
  · rw [toInt_cvtTf_add]
    exact (scaled_exact_iff (half := 315000) rfl code).trans (by omega)
  · rw [toInt_cvtRh]
    exact (scaled_exact_iff (half := 100000) rfl code).trans (by omega)

/-- A result answered without an event stands below four zeros, and nothing else changes (R42, R67 to R69). -/
theorem answer_quiet (d : Milli) (s : State) : answer d s = .next (s.emit (0#4 ++ d)) := by
  rw [answer_eq, responseWord_quiet]

/-- `DOUT[19]` is the sign of a result (R7, R8). -/
theorem getLsbD_sign (d : Milli) : d.getLsbD 19 = decide (d.toInt < 0) :=
  (BitVec.msb_eq_getLsbD_last d).symm.trans BitVec.msb_eq_toInt

/-- Settles O24: a result is negative while the scaled code is below 45000, which is up to code 0x41D3. -/
theorem cvtcCommandCompletes : Obligations.CvtcCommandCompletes := by
  refine ⟨fun code s => ⟨answer_quiet (cvtTc code) s, ?_, rfl⟩, by decide⟩
  have hs := scaled_spec 350000 code
  rw [getLsbD_sign, decide_eq_true_iff, toInt_cvtTc]
  omega

/-- Settles O25: the largest result of the three ranges is 266000. -/
theorem cvtfCommandCompletes : Obligations.CvtfCommandCompletes := by
  refine ⟨fun code s => ⟨answer_quiet (cvtTf code) s, ?_, ?_, ?_, rfl⟩, by decide⟩
  · exact (toInt_cvtTf_range code).2
  · exact (toInt_cvtTc_range code).2.trans (by decide)
  · exact (toInt_cvtRh_range code).2.trans (by decide)

/-- Settles O26: no humidity result is negative, so the sign bit is 0. -/
theorem cvrhCommandCompletes : Obligations.CvrhCommandCompletes := by
  refine ⟨fun code s => ⟨answer_quiet (cvtRh code) s, ?_, rfl⟩, by decide⟩
  rw [getLsbD_sign, decide_eq_false_iff_not, not_lt]
  exact (toInt_cvtRh_range code).1

/-- Settles O29: the results of the lowest and the highest code computed. -/
theorem conversionBoundaries : Obligations.ConversionBoundaries := by
  unfold Obligations.ConversionBoundaries
  decide

end Sys2Proof.Machine
end

section
/-! FRAME whole, and each channel by itself: one that fails leaves its registers and its bytes have no further effect
(R75 to R79). -/

namespace Sys2Proof.Machine

/-- A temperature channel that fails only clears `TV`, whatever its bytes (R77). -/
theorem State.takeTemperature_of_fail {ch : Channel} (h : ch.ok = false) (s : State) :
    s.takeTemperature ch = s.setTv false := by simp [State.takeTemperature, h]

/-- A humidity channel that fails only clears `HV`, whatever its bytes (R77). -/
theorem State.takeHumidity_of_fail {ch : Channel} (h : ch.ok = false) (s : State) :
    s.takeHumidity ch = s.setHv false := by simp [State.takeHumidity, h]

/-- Both channels taken, as one update of the state (R76). -/
theorem takeBoth_eq (s : State) (t h : Channel) : (s.takeTemperature t).takeHumidity h =
    { s with
      tc := if t.ok then cvtTc t.code else s.tc
      tf := if t.ok then cvtTf t.code else s.tf
      rh := if h.ok then cvtRh h.code else s.rh
      tv := t.ok
      hv := h.ok
      trdy := t.ok || s.trdy
      hrdy := h.ok || s.hrdy } := by
  unfold State.takeTemperature State.takeHumidity
  cases t.ok <;> cases h.ok <;> rfl

/-- The answer of FRAME bit by bit: the warnings, and the flags image with the two checks as valid flags (R17, R76,
R79). -/
theorem frameAnswer_eq (t h : Channel) (s : State) : frameAnswer t h s =
    0#2 ++ BitVec.ofBool (!h.ok) ++ BitVec.ofBool (!t.ok) ++ 0#15 ++
      BitVec.ofBool ((t.ok || s.trdy) && (h.ok || s.hrdy)) ++ BitVec.ofBool (h.ok || s.hrdy) ++
      BitVec.ofBool (t.ok || s.trdy) ++ BitVec.ofBool h.ok ++ BitVec.ofBool t.ok := by
  have hbits : ∀ ready hrdy trdy hv tv : Bool,
      responseWord false false (!hv) (!tv) (zext20 (BitVec.ofBool ready ++ BitVec.ofBool hrdy ++ BitVec.ofBool trdy ++
        BitVec.ofBool hv ++ BitVec.ofBool tv)) =
      0#2 ++ BitVec.ofBool (!hv) ++ BitVec.ofBool (!tv) ++ 0#15 ++ BitVec.ofBool ready ++ BitVec.ofBool hrdy ++
        BitVec.ofBool trdy ++ BitVec.ofBool hv ++ BitVec.ofBool tv := by decide
  rw [frameAnswer, takeBoth_eq]
  exact hbits ..

/-- Settles O33: both channels taken as one update, and the answer bit by bit. -/
theorem frameCommandCompletes : Obligations.FrameCommandCompletes := by
  intro b0 b1 b2 b3 b4 b5 s tOk hOk trdy hrdy
  refine ⟨?_, rfl⟩
  calc exec (.frame b0 b1 b2 b3 b4 b5) s
      = .next (((s.takeTemperature ⟨b0, b1, b2⟩).takeHumidity ⟨b3, b4, b5⟩).emit
          (frameAnswer ⟨b0, b1, b2⟩ ⟨b3, b4, b5⟩ s)) := exec_frame ..
    _ = _ := by rw [frameAnswer_eq, takeBoth_eq]; rfl

/-- All failing temperature channels are alike to FRAME (R77). -/
theorem exec_frame_congr_temperature {b0 b1 b2 a0 a1 a2 : Byte} (hb : chk b0 b1 b2 = false)
    (ha : chk a0 a1 a2 = false) (b3 b4 b5 : Byte) (s : State) :
    exec (.frame a0 a1 a2 b3 b4 b5) s = exec (.frame b0 b1 b2 b3 b4 b5) s := by
  rw [exec_frame, exec_frame, State.takeTemperature_of_fail (ch := ⟨a0, a1, a2⟩) ha,
    State.takeTemperature_of_fail (ch := ⟨b0, b1, b2⟩) hb, ha, hb]

/-- All failing humidity channels are alike to FRAME (R77). -/
theorem exec_frame_congr_humidity {b3 b4 b5 a3 a4 a5 : Byte} (hb : chk b3 b4 b5 = false)
    (ha : chk a3 a4 a5 = false) (b0 b1 b2 : Byte) (s : State) :
    exec (.frame b0 b1 b2 a3 a4 a5) s = exec (.frame b0 b1 b2 b3 b4 b5) s := by
  rw [exec_frame, exec_frame, State.takeHumidity_of_fail (ch := ⟨a3, a4, a5⟩) ha,
    State.takeHumidity_of_fail (ch := ⟨b3, b4, b5⟩) hb, ha, hb]

/-- Settles O34: the registers channel by channel; of a failing channel FRAME sees no more than that it fails. -/
theorem staleOnInvalid : Obligations.StaleOnInvalid := by
  intro b0 b1 b2 b3 b4 b5 s
  refine ⟨_, exec_frame .., fun ht => ?temperatureFails, fun hh => ?humidityFails⟩
  case temperatureFails =>
    refine ⟨by simp [Channel.ok, ht], by simp [Channel.ok, ht],
      fun hh => by simp [Channel.ok, Channel.code, code16, hh], fun a0 a1 a2 ha => ?_⟩
    exact (exec_frame_congr_temperature ht ha b3 b4 b5 s).trans (exec_frame ..)
  case humidityFails =>
    refine ⟨by simp [Channel.ok, hh], fun ht => by simp [Channel.ok, Channel.code, code16, ht],
      fun a3 a4 a5 ha => ?_⟩
    exact (exec_frame_congr_humidity hh ha b0 b1 b2 s).trans (exec_frame ..)

/-- FRAME leaves each channel's own check in its valid flag (R21, R75). -/
theorem exec_frame_validFlags (b0 b1 b2 b3 b4 b5 : Byte) (s : State) :
    ∃ t, exec (.frame b0 b1 b2 b3 b4 b5) s = .next t ∧ t.tv = chk b0 b1 b2 ∧ t.hv = chk b3 b4 b5 :=
  ⟨_, exec_frame .., by simp [Channel.ok], by simp [Channel.ok]⟩

/-- The last byte decides the check of a payload either way: its checksum passes, any other byte fails (R75). -/
theorem exists_chk_eq (p0 p1 : Byte) (x : Bool) : ∃ c, chk p0 p1 c = x := by
  cases x with
  | true => exact ⟨crc8 p0 p1, (chk_iff ..).mpr rfl⟩
  | false =>
    have hne : crc8 p0 p1 ≠ crc8 p0 p1 + 1 := by simp
    exact ⟨crc8 p0 p1 + 1, beq_false_of_ne hne⟩

/-- Settles O37: the valid flags are the checks, and a channel of either result is chosen without regard to the other. -/
theorem channelChecksIndependent : Obligations.ChannelChecksIndependent := by
  refine ⟨fun _ _ _ => rfl, exec_frame_validFlags, fun s x y => ?_⟩
  obtain ⟨b2, hx⟩ := exists_chk_eq 0x00 0x00 x
  obtain ⟨b5, hy⟩ := exists_chk_eq 0x00 0x00 y
  obtain ⟨t, ht, htv, hhv⟩ := exec_frame_validFlags 0x00 0x00 b2 0x00 0x00 b5 s
  exact ⟨_, _, _, _, _, _, t, ht, htv.trans hx, hhv.trans hy⟩

end Sys2Proof.Machine
end

section
/-! VSTAT: the status word as it was received, or the sentinel with the warning (R80 to R82). -/

namespace Sys2Proof.Machine

/-- A status word answered without an event stands below eight zeros, first byte most significant (R42, R80). -/
theorem responseWord_status (p0 p1 : Byte) :
    responseWord false false false false (zext20 (code16 p0 p1)) = 0#8 ++ p0 ++ p1 := by
  rw [responseWord_quiet, zext20, code16]
  apply BitVec.eq_of_getLsbD_eq
  intro i hi
  simp only [BitVec.getLsbD_append, BitVec.getLsbD_setWidth]
  grind

/-- The answer of VSTAT to a frame that fails (R81). -/
theorem responseWord_sentinel : responseWord false true false false (zext20 statusSentinel) = 0x40FFFF#24 := by decide

/-- The status word answered is 0xFFFF exactly if both its bytes are 0xFF (R80, R81). -/
theorem zext20_code16_eq_iff (p0 p1 : Byte) : zext20 (code16 p0 p1) = 0x0FFFF#20 ↔ p0 = 0xFF ∧ p1 = 0xFF := by
  refine ⟨fun h => ?_, by rintro ⟨rfl, rfl⟩; decide⟩
  have hcode : p0 ++ p1 = 0xFFFF#16 := by simpa [zext20, code16] using congrArg (BitVec.setWidth 16) h
  exact ⟨BitVec.extractLsb'_append_eq_left.symm.trans (congrArg (BitVec.extractLsb' 8 8) hcode),
    BitVec.extractLsb'_append_eq_right.symm.trans (congrArg (BitVec.extractLsb' 0 8) hcode)⟩

/-- Settles O39: the answer of VSTAT in its two cases. -/
theorem vstatCommandCompletes : Obligations.VstatCommandCompletes := by
  refine fun p0 p1 c s => ⟨(exec_vstat p0 p1 c s).trans ?_, rfl⟩
  by_cases h : crc8 p0 p1 = c
  · rw [(chk_iff ..).mpr h, if_pos rfl, if_pos h, ← responseWord_status]
    rfl
  · rw [Bool.eq_false_iff.mpr ((chk_iff ..).not.mpr h), if_neg h, ← responseWord_sentinel]
    rfl

/-- The checksum of a status of 0xFFFF (R81). -/
theorem chk_sentinel_iff (c : Byte) : chk 0xFF 0xFF c = true ↔ c = 0xAC := by
  have h : crc8 0xFF 0xFF = 0xAC := by decide +kernel
  rw [chk_iff, h, eq_comm]

/-- Settles O40: `WS` is the failed check; without it the answer is the bytes received, and their checksum. -/
theorem sentinelToldByWarning : Obligations.SentinelToldByWarning := by
  intro p0 p1 c s
  refine ⟨_, _, exec_vstat p0 p1 c s, State.emit_outputs .., ?_⟩
  rw [rspWs_responseWord, rspDout_responseWord]
  have hsentinel : p0 = 0xFF ∧ p1 = 0xFF ∧ c = 0xAC ↔ zext20 (code16 p0 p1) = 0x0FFFF#20 ∧ chk p0 p1 c = true := by
    rw [zext20_code16_eq_iff, and_assoc]
    refine and_congr_right fun h0 => and_congr_right fun h1 => ?_
    rw [h0, h1, chk_sentinel_iff]
  rw [hsentinel]
  cases chk p0 p1 c with
  | true => simp
  | false => simp [← responseWord_sentinel]

end Sys2Proof.Machine
end

section
/-! The read-out commands: RDTC, RDTF and RDRH answer their register and clear its ready flag, RDFLG answers the flags
image and clears nothing (R84 to R87). -/

namespace Sys2Proof.Machine

/-- RDFLG ends in the same state with the flags image answered: looking at the flags consumes none (R87). -/
theorem exec_rdflg (s : State) : exec .rdflg s = .next (s.emit s.flagsAnswer) := answer_eq (zext20 s.flags) s

/-- The answer of RDFLG is the flags image below zeros alone (R17, R42, R87). -/
theorem State.flagsAnswer_eq_setWidth (s : State) : s.flagsAnswer = s.flags.setWidth 24 := by
  rw [State.flagsAnswer, responseWord_quiet, zext20]
  apply BitVec.eq_of_getLsbD_eq
  intro i hi
  rw [BitVec.getLsbD_append, BitVec.getLsbD_setWidth, BitVec.getLsbD_setWidth]
  grind

/-- Where each flag stands in the flags image (R17, R18). -/
theorem State.getLsbD_flags (s : State) :
    s.flags.getLsbD 0 = s.tv ∧ s.flags.getLsbD 1 = s.hv ∧ s.flags.getLsbD 2 = s.trdy ∧ s.flags.getLsbD 3 = s.hrdy ∧
      s.flags.getLsbD 4 = (s.trdy && s.hrdy) := by
  simp only [State.flags, State.ready, BitVec.getLsbD_append]
  simp

/-- Settles O44: the answer is the flags image of five bits, so each flag is read off the image and the rest is 0. -/
theorem rdflgCommandCompletes : Obligations.RdflgCommandCompletes := by
  intro s
  have hbit : ∀ i < 24, s.flagsAnswer.getLsbD i = s.flags.getLsbD i := fun i hi => by
    rw [State.flagsAnswer_eq_setWidth, BitVec.getLsbD_setWidth, decide_eq_true hi, Bool.true_and]
  have hhigh : s.flagsAnswer.toNat < 32 := by
    rw [State.flagsAnswer_eq_setWidth, BitVec.toNat_setWidth]
    exact (Nat.mod_le ..).trans_lt s.flags.isLt
  obtain ⟨htv, hhv, htrdy, hhrdy, hready⟩ := s.getLsbD_flags
  exact ⟨s.flagsAnswer, exec_rdflg s, (hbit 0 (by decide)).trans htv, (hbit 1 (by decide)).trans hhv,
    (hbit 2 (by decide)).trans htrdy, (hbit 3 (by decide)).trans hhrdy, (hbit 4 (by decide)).trans hready, hhigh, rfl⟩

/-- Settles O41: `TC` answered without an event, from the state with `TRDY` cleared. -/
theorem rdtcCommandCompletes : Obligations.RdtcCommandCompletes := fun s =>
  ⟨answer_quiet s.tc (s.setTrdy false), rfl⟩

/-- Settles O42: `TF` answered without an event, from the state with `TRDY`, the one flag of both units, cleared. -/
theorem rdtfCommandCompletes : Obligations.RdtfCommandCompletes := fun s =>
  ⟨answer_quiet s.tf (s.setTrdy false), rfl⟩

/-- Settles O43: `RH` answered without an event, from the state with `HRDY` cleared. -/
theorem rdrhCommandCompletes : Obligations.RdrhCommandCompletes := fun s =>
  ⟨answer_quiet s.rh (s.setHrdy false), rfl⟩

end Sys2Proof.Machine
end

section
/-! The events of R92: no event stops the block, and which event bits a response can carry, said once for all words (R91 to
R97). -/

namespace Sys2Proof.Machine

/-- Settles O11: a step idles or runs one event, and every event ends in a next state. -/
theorem stepNeverStops : Obligations.StepNeverStops := by
  intro s
  cases hi : s.inputs with
  | nil => exact ⟨s, step_nil hi, hi⟩
  | cons e es =>
    obtain ⟨t, -, ht, hti, -⟩ := runEvent_answers e (s.setInputs es)
    exact ⟨t, (step_cons hi).trans ht, hti⟩

/-- Settles O13: a step with nothing waiting holds the state, so the run stays where it is. -/
theorem idleBlockHoldsState : Obligations.IdleBlockHoldsState := by
  intro s n h
  induction n with
  | zero => rfl
  | succ n ih => exact (run_succ (step_nil h) n).trans ih

/-- The words that are not legal are those the decoder refuses (R47). -/
theorem legalWord_eq_false_iff (w : CmdWord) : legalWord w = false ↔ ∃ e, decode w = .error e := by
  rw [← Bool.not_eq_true, legalWord_iff_decode]
  cases decode w <;> simp

/-- Settles O10: the word is taken, and as it does not decode it is only answered. -/
theorem illegalWordAnswered : Obligations.IllegalWordAnswered := by
  intro s w es hs hw
  obtain ⟨e, he⟩ := (legalWord_eq_false_iff w).mp hw
  exact ⟨(step_cons hs).trans (runCommand_error he _), responseWord_illegal⟩

/-- The command is neither of the two that can raise an event: FRAME, VSTAT (R92). -/
def RaisesNoEvent : Instr → Prop
  | .frame _ _ _ _ _ _ => False
  | .vstat _ _ _ => False
  | _ => True

/-- The responses that the word `w` can have, by the events of R92. -/
inductive AnsweredBy (w : CmdWord) : RspWord → Prop where
  /-- No command: `ILL` alone (R93). -/
  | illegal {e : DecodeError} (hd : decode w = .error e) : AnsweredBy w (responseWord true false false false 0#20)
  /-- FRAME: a warning per channel that fails (R79). -/
  | frame {b0 b1 b2 b3 b4 b5 : Byte} (hd : decode w = .ok (.frame b0 b1 b2 b3 b4 b5)) (d : Milli) :
      AnsweredBy w (responseWord false false (!chk b3 b4 b5) (!chk b0 b1 b2) d)
  /-- VSTAT: `WS` and the sentinel if the check fails (R80). -/
  | vstat {p0 p1 c : Byte} (hd : decode w = .ok (.vstat p0 p1 c)) :
      AnsweredBy w (responseWord false (!chk p0 p1 c) false false
        (zext20 (if chk p0 p1 c then code16 p0 p1 else statusSentinel)))
  /-- Any other command: no event bit. -/
  | quiet {i : Instr} (hd : decode w = .ok i) (hi : RaisesNoEvent i) (d : Milli) :
      AnsweredBy w (responseWord false false false false d)

/-- Every word gives one response, of the kind its decoding says. -/
theorem runCommand_answeredBy (w : CmdWord) (s : State) :
    ∃ t r, runCommand w s = .next t ∧ t.outputs = s.outputs ++ [r] ∧ AnsweredBy w r := by
  cases hd : decode w with
  | error e => exact ⟨_, _, runCommand_error hd s, rfl, .illegal hd⟩
  | ok i =>
    rw [runCommand_ok hd]
    cases i with
    | frame => exact ⟨_, _, exec_frame .., takeBoth_emit_outputs .., .frame hd _⟩
    | vstat => exact ⟨_, _, exec_vstat .., rfl, .vstat hd⟩
    | crc8 | verify | cvtc | cvtf | cvrh | rdtc | rdtf | rdrh | rdflg => exact ⟨_, _, rfl, rfl, .quiet hd trivial _⟩

/-- Settles O49: in each kind of response the bits are the failed checks of the word's own command. -/
theorem eventBitsExact : Obligations.EventBitsExact := by
  intro w s
  obtain ⟨t, r, ht, hto, ha⟩ := runCommand_answeredBy w s
  refine ⟨t, r, ht, hto, ?_⟩
  rw [legalWord_eq_false_iff]
  cases ha with
  | illegal hd => simp [hd]
  | frame hd d => simp [hd, chk]
  | vstat hd =>
    have hsentinel : zext20 statusSentinel = 0x0FFFF#20 := by decide
    simp +contextual [hd, chk, hsentinel]
  | @quiet i hd hi d =>
    have hframe : ∀ b0 b1 b2 b3 b4 b5, i ≠ .frame b0 b1 b2 b3 b4 b5 := by rintro _ _ _ _ _ _ rfl; exact hi
    have hvstat : ∀ p0 p1 c, i ≠ .vstat p0 p1 c := by rintro _ _ _ rfl; exact hi
    simp [hd, hframe, hvstat]

/-- Settles O50: no kind of response has `ILL` or `WS` with another event bit; a FRAME of zeros fails in both channels. -/
theorem eventsNeverMix : Obligations.EventsNeverMix := by
  refine ⟨fun w s => ?_, encode (.frame 0 0 0 0 0 0), State.reset, ?_⟩
  · obtain ⟨t, r, ht, hto, ha⟩ := runCommand_answeredBy w s
    refine ⟨t, r, ht, hto, ?_⟩
    cases ha with
    | illegal | frame | vstat | quiet => simp
  · have hfail : chk 0 0 0 = false := by decide +kernel
    have hboth := exec_frame_of_both_fail hfail hfail State.reset
    exact ⟨_, _, (runCommand_ok (decode_encode_frame ..) _).trans hboth, rfl, by simp, by simp⟩

end Sys2Proof.Machine
end

section
/-! Reset at the port: in any cycle, over a command under way, and before the first command (R105, R107). -/

namespace Sys2Proof.Machine

/-- A ready port takes the command presented (R39). -/
theorem Port.tick_accepts {p : Port} (hp : p.phase = .idle) (w : CmdWord) :
    p.tick ⟨false, true, w⟩ = p.quiet (.busy w (Config.latMinusOne p.cycle w)) true :=
  Port.tick_idle rfl hp

/-- A cycle in which no command is presented leaves the port ready for the next one, whatever `cmd_ready` is (R39). -/
theorem Port.listen_unpresented (p : Port) {i : PortIn} (hi : i.cmdValid = false) (ready : Bool) :
    p.listen i ready = p.quiet .idle ready := by
  simp [Port.listen, hi]

/-- A command with `n` cycles left is abandoned by a reset at most `n` cycles later: the cycles up to the reset count
the latency down and do nothing else (R107). -/
theorem Port.run_busy_reset {p : Port} {w : CmdWord} {n : Nat} {is : List PortIn} {i : PortIn}
    (hp : p.phase = .busy w n) (his : NoReset is) (hlen : is.length ≤ n) (hi : i.rst = true) :
    ∃ p' os, p.run (is ++ [i]) = .next (p', os) ∧ (∀ o ∈ os, o.rspValid = false) ∧
      p'.block = hostReset p.block ∧ p'.phase = .starting := by
  induction is generalizing p n with
  | nil => exact ⟨_, _, Port.run_cons (Port.tick_reset hi) rfl, by simp, rfl, rfl⟩
  | cons j is ih =>
    obtain ⟨m, rfl⟩ := Nat.exists_eq_add_one_of_ne_zero (Nat.ne_zero_of_lt hlen)
    obtain ⟨hj, his⟩ := List.forall_mem_cons.mp his
    have ht : p.tick j = p.quiet (.busy w m) false := Port.tick_busy hj hp
    obtain ⟨p', os, hrun, hquiet, hblock, hphase⟩ :=
      ih (p := { p with phase := .busy w m, cycle := p.cycle + 1 }) rfl his (Nat.le_of_succ_le_succ hlen)
    exact ⟨p', _ :: os, Port.run_cons ht hrun, List.forall_mem_cons.mpr ⟨rfl, hquiet⟩, hblock, hphase⟩

/-- Settles O59: the acceptance leaves LAT - 1 cycles to wait, so a reset before the response finds the command under
way and the block untouched. -/
theorem resetAbandonsCommand : Obligations.ResetAbandonsCommand := by
  refine ⟨fun p v c => ⟨_, _, Port.tick_reset rfl, rfl, rfl, rfl, rfl⟩, fun p w c v is hp his hlen => ?_⟩
  obtain ⟨p', os, hrun, hquiet, hblock, hphase⟩ :=
    Port.run_busy_reset (p := { p with phase := .busy w (Config.latMinusOne p.cycle w), cycle := p.cycle + 1 })
      (i := ⟨true, v, c⟩) rfl his (Nat.le_of_lt_succ hlen) rfl
  exact ⟨p', _ :: os, Port.run_cons (Port.tick_accepts hp w) hrun, List.forall_mem_cons.mpr ⟨rfl, hquiet⟩, hblock,
    hphase⟩

/-- Settles O60: the reset cycle, then a starting cycle with no command presented, which ends ready whatever
`cmd_ready` is in it. -/
theorem firstResetStartsPort : Obligations.FirstResetStartsPort := by
  intro p v w hp
  refine ⟨Port.tick_unreset rfl hp, ?_⟩
  have hreset : p.tick ⟨true, v, w⟩ = p.inReset := Port.tick_reset rfl
  have hstart (q : Port) (hq : q.phase = .starting) :
      q.tick ⟨false, false, w⟩ = q.quiet .idle (Config.firstCycleReady q.cycle) :=
    (Port.tick_starting rfl hq).trans (q.listen_unpresented rfl _)
  exact ⟨_, _, Port.run_cons hreset (Port.run_cons (hstart _ rfl) rfl), rfl, rfl, rfl,
    _, _, Port.tick_accepts rfl w, rfl, rfl⟩

end Sys2Proof.Machine
end
